-- ==== Sys2Proof/Word.lean ====
section
/-! DEFINITION. The widths of the block (spec/00_scope.md R7): u8, u16 and u32. Byte order and the other bit-field
helpers are in Machine/Bytes.lean. -/

namespace Sys2Proof

/-- u8. -/
abbrev Byte := BitVec 8

/-- u16: a coordinate, a length, a pixel, a memory cell of LUT and of a framebuffer. -/
abbrev Half := BitVec 16

/-- u32: a host register, a command word. -/
abbrev Word := BitVec 32

end Sys2Proof
end

