-- ==== Sys2Proof/Machine/Bytes.lean ====
section
/-! DEFINITION. Bit fields and byte order (spec/00_scope.md R7). -/

namespace Sys2Proof

/-- `hi8(v) = v[15:8]`. -/
def hi8 (v : Half) : Byte := v.extractLsb' 8 8

/-- `lo8(v) = v[7:0]`. -/
def lo8 (v : Half) : Byte := v.extractLsb' 0 8

/-- `be16(v) = [hi8(v), lo8(v)]`, the wire's order (spec/20_memory.md R65). -/
def be16 (v : Half) : List Byte := [hi8 v, lo8 v]

/-- `le16(v) = [lo8(v), hi8(v)]`, the order in which a cell leaves the block (R66). -/
def le16 (v : Half) : List Byte := [lo8 v, hi8 v]

/-- The u16 with the given high and low bytes. -/
def ofBytes (hi lo : Byte) : Half := hi ++ lo

/-- `swap16(v)` exchanges the two bytes. -/
def swap16 (v : Half) : Half := ofBytes (lo8 v) (hi8 v)

/-- `rep(n, l)`: `l` concatenated `n` times. -/
def rep (n : Nat) (l : List Byte) : List Byte := (List.replicate n l).flatten

/-- `trunc_16` of a mathematical integer: its 16-bit two's complement. -/
def trunc16 (v : Int) : Half := BitVec.ofInt 16 v

end Sys2Proof
end

