-- ==== Sys2Proof/Syntax.lean ====
section
/-! DEFINITION. The operations: one constructor per row of spec/opcode_table.json.

The fifteen HOST rows (spec/30_encoding.md R90 to R94) carry no operand in their word: they read the operand registers
A0..A4. The ten WIRE rows (R100, R101) are a command byte and a payload. -/

namespace Sys2Proof

inductive Instr where
  -- HOST rows, R92
  | panelCreate
  | init
  | setBacklight
  | writeCommand
  | write
  | setWindow
  | drawPixel
  | hline
  | vline
  | fillRect
  | line
  | finishUpdate
  | keypadPoll
  | getBackBuffer
  | getFrontBuffer
  -- WIRE rows, R100
  | softwareReset
  | sleepOut
  | normalDisplayOn
  | inversionOn
  | displayOn
  /-- `start` and `stop` are the inclusive bounds as they stand on the wire, origin already added (R101). -/
  | columnAddressSet (start stop : Half)
  | rowAddressSet (start stop : Half)
  /-- No payload on SERIAL; on PARALLEL the first pixel chunk, two bytes per pixel (R100). -/
  | memoryWrite (payload : List Byte)
  | pixelFormat (value : Byte)
  | memoryAccessControl (value : Byte)
  deriving DecidableEq, Repr

/-- The two encodings of the block (spec/30_encoding.md, opening; opcode_table.json "format"). -/
inductive Format where
  | host
  | wire
  deriving DecidableEq, Repr

def Instr.format : Instr → Format
  | .panelCreate | .init | .setBacklight | .writeCommand | .write | .setWindow | .drawPixel | .hline | .vline
  | .fillRect | .line | .finishUpdate | .keypadPoll | .getBackBuffer | .getFrontBuffer => .host
  | .softwareReset | .sleepOut | .normalDisplayOn | .inversionOn | .displayOn | .columnAddressSet _ _
  | .rowAddressSet _ _ | .memoryWrite _ | .pixelFormat _ | .memoryAccessControl _ => .wire

end Sys2Proof
end

