-- ==== Sys2Proof/WellFormed.lean ====
section
/-! DEFINITION. What the encodings demand of an operation beyond its type. -/

namespace Sys2Proof

/-- The payload of memory-write is "0 bytes, or 2 bytes per pixel" (spec/30_encoding.md R100): an even number of bytes.
Every other operand has exactly the width of its field, so nothing else can be ill-formed (R94: "Operand values are never
illegal by encoding"). -/
def Instr.wellFormed : Instr → Bool
  | .memoryWrite payload => payload.length % 2 == 0
  | .panelCreate | .init | .setBacklight | .writeCommand | .write | .setWindow | .drawPixel | .hline | .vline
  | .fillRect | .line | .finishUpdate | .keypadPoll | .getBackBuffer | .getFrontBuffer
  | .softwareReset | .sleepOut | .normalDisplayOn | .inversionOn | .displayOn
  | .columnAddressSet _ _ | .rowAddressSet _ _ | .pixelFormat _ | .memoryAccessControl _ => true

end Sys2Proof
end

