-- ==== Sys2Proof/Decode.lean ====
section
/-! DEFINITION. The decoders of the two encodings, total and rejecting by name, and the encoder written from the same
tables (spec/30_encoding.md R90 to R94 for HOST, R100 to R102 for WIRE). -/

namespace Sys2Proof

/-- Why a word or a frame names no operation. -/
inductive DecodeError where
  /-- HOST: a bit of 31:8 is set (R90, R94). -/
  | highBits (w : Word)
  /-- HOST: the low byte is 0x00 or 0x10..0xFF (R94). -/
  | hostOpcode (b : Byte)
  /-- WIRE: no command byte at all. -/
  | wireEmpty
  /-- WIRE: the byte is none of the ten commands of R100. -/
  | wireCommand (b : Byte)
  /-- WIRE: the command's payload does not have the length R100 gives. -/
  | wirePayload (b : Byte) (length : Nat)
  deriving DecidableEq, Repr

/-- R91, R92: after the check of bits 31:8 a lookup of the low byte. -/
def decodeHost (w : Word) : Except DecodeError Instr :=
  if w.toNat / 256 ≠ 0 then .error (.highBits w)
  else
    match w.toNat with
    | 0x01 => .ok .panelCreate
    | 0x02 => .ok .init
    | 0x03 => .ok .setBacklight
    | 0x04 => .ok .writeCommand
    | 0x05 => .ok .write
    | 0x06 => .ok .setWindow
    | 0x07 => .ok .drawPixel
    | 0x08 => .ok .hline
    | 0x09 => .ok .vline
    | 0x0A => .ok .fillRect
    | 0x0B => .ok .line
    | 0x0C => .ok .finishUpdate
    | 0x0D => .ok .keypadPoll
    | 0x0E => .ok .getBackBuffer
    | 0x0F => .ok .getFrontBuffer
    | _ => .error (.hostOpcode (w.setWidth 8))

/-- An action command takes no payload (R100). -/
def decodeAction (i : Instr) (b : Byte) (payload : List Byte) : Except DecodeError Instr :=
  if payload = [] then .ok i else .error (.wirePayload b payload.length)

/-- An address-set payload is `be16(start) ++ be16(end)` (R100, R101). -/
def decodeAddressSet (f : Half → Half → Instr) (b : Byte) : List Byte → Except DecodeError Instr
  | [startHi, startLo, stopHi, stopLo] => .ok (f (ofBytes startHi startLo) (ofBytes stopHi stopLo))
  | payload => .error (.wirePayload b payload.length)

/-- A mode-set payload is one byte (R100). -/
def decodeModeSet (f : Byte → Instr) (b : Byte) : List Byte → Except DecodeError Instr
  | [v] => .ok (f v)
  | payload => .error (.wirePayload b payload.length)

/-- A memory-write payload is any number of two-byte pixels (R100). -/
def decodeMemoryWrite (b : Byte) (payload : List Byte) : Except DecodeError Instr :=
  if payload.length % 2 = 0 then .ok (.memoryWrite payload) else .error (.wirePayload b payload.length)

/-- R100: the command byte, then the payload that follows it. -/
def decodeWire : List Byte → Except DecodeError Instr
  | [] => .error .wireEmpty
  | b :: payload =>
    match b.toNat with
    | 0x01 => decodeAction .softwareReset b payload
    | 0x11 => decodeAction .sleepOut b payload
    | 0x13 => decodeAction .normalDisplayOn b payload
    | 0x21 => decodeAction .inversionOn b payload
    | 0x29 => decodeAction .displayOn b payload
    | 0x2A => decodeAddressSet .columnAddressSet b payload
    | 0x2B => decodeAddressSet .rowAddressSet b payload
    | 0x2C => decodeMemoryWrite b payload
    | 0x3A => decodeModeSet .pixelFormat b payload
    | 0x36 => decodeModeSet .memoryAccessControl b payload
    | _ => .error (.wireCommand b)

/-- An encoded operation: a command word for CMD, or a command byte with its payload. -/
inductive Code where
  | host (w : Word)
  | wire (frame : List Byte)
  deriving DecidableEq, Repr

def decode : Code → Except DecodeError Instr
  | .host w => decodeHost w
  | .wire frame => decodeWire frame

/-- The encoder (R92, R100, R101). -/
def encode : Instr → Code
  | .panelCreate => .host 0x01
  | .init => .host 0x02
  | .setBacklight => .host 0x03
  | .writeCommand => .host 0x04
  | .write => .host 0x05
  | .setWindow => .host 0x06
  | .drawPixel => .host 0x07
  | .hline => .host 0x08
  | .vline => .host 0x09
  | .fillRect => .host 0x0A
  | .line => .host 0x0B
  | .finishUpdate => .host 0x0C
  | .keypadPoll => .host 0x0D
  | .getBackBuffer => .host 0x0E
  | .getFrontBuffer => .host 0x0F
  | .softwareReset => .wire [0x01]
  | .sleepOut => .wire [0x11]
  | .normalDisplayOn => .wire [0x13]
  | .inversionOn => .wire [0x21]
  | .displayOn => .wire [0x29]
  | .columnAddressSet start stop => .wire (0x2A :: (be16 start ++ be16 stop))
  | .rowAddressSet start stop => .wire (0x2B :: (be16 start ++ be16 stop))
  | .memoryWrite payload => .wire (0x2C :: payload)
  | .pixelFormat value => .wire [0x3A, value]
  | .memoryAccessControl value => .wire [0x36, value]

/-- The least payload a wire command has, in bytes (R100). -/
def wirePayloadLength (b : Byte) : Nat :=
  match b.toNat with
  | 0x2A | 0x2B => 4
  | 0x3A | 0x36 => 1
  | _ => 0

/-- The bytes of a table row's word: the first byte is bits 7:0. -/
def tableBytes (nbits w : Nat) : List Byte :=
  (List.range (nbits / 8)).map fun k => BitVec.ofNat 8 (w / 2 ^ (8 * k))

/-- A WIRE row's word as a frame; payload bytes above `nbits` are 0. -/
def tableFrame (nbits w : Nat) : List Byte :=
  match tableBytes nbits w with
  | [] => []
  | b :: payload => b :: (payload ++ List.replicate (wirePayloadLength b - payload.length) 0)

/-- A table row's word in its own encoding: HOST rows have 32 bits, WIRE rows 8 (notes/assumptions/4.md). -/
def tableCode (nbits w : Nat) : Code :=
  if nbits = 32 then .host (BitVec.ofNat 32 w) else .wire (tableFrame nbits w)

def decodeTableWord (nbits w : Nat) : Option Instr :=
  match decode (tableCode nbits w) with
  | .ok i => some i
  | .error _ => none

end Sys2Proof
end

