-- ==== Sys2Proof/Config.lean ====
section
/-! DEFINITION. What the board, the panel or the build fixes (spec/00_scope.md R6), and the free values.

The spec leaves every parameter open, so the machine takes ONE record of them, the opaque constant `Config.cfg`: no proof
can see a value of it, and a statement holds for every configuration (notes/assumptions/5.md). The constraints of R6 hold
by construction: see Machine/Params.lean, where the parameters are read. -/

namespace Sys2Proof

/-- The transport variants (spec/10_state.md R25); the value 3 is never stored, so it is no constructor. -/
inductive Transport where
  | null
  | serial
  | parallel
  deriving DecidableEq, Repr, Inhabited

/-- DBUF (R6, spec/44_frame_blit.md R206). -/
inductive Buffering where
  | single
  | double
  deriving DecidableEq, Repr, Inhabited

/-- WMUL is 1 or 2 (R6, spec/44_frame_blit.md R202). -/
inductive WidthMultiplier where
  | one
  | two
  deriving DecidableEq, Repr, Inhabited

/-- GAMMA(255) is 65534 or 65535 (R6, spec/40_panel_protocol.md R131). -/
inductive FullDuty where
  | d65534
  | d65535
  deriving DecidableEq, Repr, Inhabited

/-- KeyCode is an engine-defined type (R6, D29): a code is known by a number and nothing else (notes/assumptions/6.md). -/
structure KeyCode where
  code : Nat
  deriving DecidableEq, Repr, Inhabited

/-- `Cfg` of R6. -/
structure Cfg where
  hasRst : Bool
  tRst1Ms : Nat
  tRst2Ms : Nat
  tRst3Ms : Nat
  tSlpoutMs : Nat
  tColmodMs : Nat
  tMadctlMs : Nat
  tInvonMs : Nat
  tNoronMs : Nat
  tFillMs : Nat
  tDisponMs : Nat
  colmodValue : Byte
  madctlValue : Byte
  /-- ORIGIN_TABLE: transport, width, height. -/
  originTable : Transport → Half → Half → Option (Half × Half)
  /-- GAMMA at the levels 1 to 254; its other two values are constrained (`Cfg.gamma`). -/
  gammaBetween : Byte → Half
  /-- GAMMA(255). -/
  gammaFull : FullDuty
  /-- DMA_THRESHOLD, in bytes. -/
  dmaThreshold : Nat
  widthMultiplier : WidthMultiplier
  buffering : Buffering
  /-- FB_CELLS less 1. -/
  fbCellsLessOne : Nat
  /-- ROWBUF_PIXELS less 1. -/
  rowbufPixelsLessOne : Fin 65535
  /-- XBUF_BYTES less 1. -/
  xbufBytesLessOne : Nat
  tStrobeUs : Nat
  /-- KEYMAP: phase, key index. -/
  keymap : Fin 2 → Fin 5 → KeyCode
  deriving Inhabited

/-- The configuration of this machine. -/
opaque Config.cfg : Cfg

/-! Free values. The content of PAL, LUT, FB and XBUF after reset is unspecified (spec/10_state.md R45, U9): after the
`n`-th reset an unwritten cell `i` holds one of these (notes/assumptions/7.md). -/

opaque Config.palPowerOn (epoch i : Nat) : Byte
opaque Config.lutPowerOn (epoch i : Nat) : Half
opaque Config.fbPowerOn (epoch buffer i : Nat) : Half
opaque Config.xbufPowerOn (epoch i : Nat) : Byte

/-! The content of the transient buffers outside the operation that writes them is unspecified (R35, R36, U10):
notes/assumptions/9.md. -/

opaque Config.rowbufFree (generation i : Nat) : Half
opaque Config.stageFree (generation i : Nat) : Half

end Sys2Proof
end

