-- ==== Sys2Proof/Machine/State.lean ====
section
/-! DEFINITION. The state of the block (spec/10_state.md R20), the events of its output stream (R40), what a host can do
(R16, R27, R61), why a step can stop, and the reset state (R45). -/

namespace Sys2Proof.Machine

/-- The path of a transport write (spec/41_transport.md R150). -/
inductive Path where
  | clocked
  | strobed
  | block
  deriving DecidableEq, Repr

/-- The type of a key event (spec/45_keypad_scanner.md R226). -/
inductive KeyEdge where
  | down
  | up
  deriving DecidableEq, Repr

/-- The events of OUT (spec/10_state.md R40). -/
inductive Event where
  /-- chip-select driven; true is asserted -/
  | cs (asserted : Bool)
  /-- selector line driven; false is low (command), true is high (data) -/
  | dc (high : Bool)
  /-- panel reset line driven -/
  | rst (high : Bool)
  /-- backlight duty set -/
  | bl (duty : Half)
  /-- one transport write, its bytes in wire order -/
  | xfer (path : Path) (bytes : List Byte)
  /-- at least `n` milliseconds pass here (spec/70_reset_and_hazards.md R286) -/
  | delayMs (n : Nat)
  /-- at least `n` microseconds pass here -/
  | delayUs (n : Nat)
  /-- strobe lines driven; bit 0 is line A, bit 1 line B -/
  | strobe (lines : BitVec 2)
  /-- keypad pin configuration performed -/
  | kpcfg
  /-- key event posted to the engine's sink -/
  | key (edge : KeyEdge) (code : KeyCode)
  /-- `DIAG(UnsupportedDims, transport, width, height)`, the one diagnostic (spec/60_exceptions.md R248) -/
  | diagUnsupportedDims (transport : Transport) (width height : Half)
  deriving DecidableEq, Repr

/-- The memory spaces a host can name (spec/20_memory.md R61). -/
inductive Space where
  | pal
  | lut
  | fb0
  | fb1
  | xbuf
  deriving DecidableEq, Repr

/-- A memory space as data: its written cells, (index, value), indexes strictly rising. A cell that is not listed holds
the unspecified content of R45 (notes/assumptions/7.md, 8.md). `Mem 8` is a list of `Host.Cell`. -/
abbrev Mem (w : Nat) := List (Nat × BitVec w)

/-- Two phases of five keys: SCAN[p][i] (spec/10_state.md R37), and the sampled levels (R42). -/
abbrev KeyMatrix := Vector (Vector Bool 5) 2

def KeyMatrix.none : KeyMatrix := Vector.replicate 2 (Vector.replicate 5 false)

/-- What the outside does to the block between operations, one step each (spec/00_scope.md R16, notes/assumptions/1.md). -/
inductive HostAction where
  /-- `WriteReg(n, v)`; number 0 is CMD and starts an operation (spec/10_state.md R23, R27) -/
  | writeReg (n : Nat) (v : Word)
  /-- `ReadReg(n)` -/
  | readReg (n : Nat)
  /-- `WriteMem(space, i, v)`; `v` must fit the space's cell (spec/20_memory.md R61) -/
  | writeMem (space : Space) (i : Nat) (v : Half)
  /-- `ReadMem(space, i)` -/
  | readMem (space : Space) (i : Nat)
  /-- The key matrix comes to answer these levels when sampled (spec/10_state.md R42; notes/assumptions/11.md). -/
  | setLevels (levels : KeyMatrix)
  /-- The reset of spec/70_reset_and_hazards.md R270 (notes/assumptions/17.md). -/
  | reset
  /-- The model's own: one WIRE row run alone, as command byte and payload (notes/assumptions/3.md). -/
  | wireFrame (frame : List Byte)
  deriving DecidableEq, Repr

/-- Why the machine stops. The seven faults of spec/60_exceptions.md R240 are NOT here: taking one is a next state
(`raise`, Machine/Ops.lean). -/
inductive Fault where
  /-- Raised by `runCommand` and `runWireFrame`: a command while FAULT = 1. "a faulted state has no operation step until
  reset" (spec/93 U16, spec/60_exceptions.md R242). Safe: the model stops where the block would ignore the write
  (notes/assumptions/12.md). -/
  | commandWhileFaulted
  deriving DecidableEq, Repr

/-- Requests without a meaning. -/
inductive Refusal where
  /-- Answered by an arm of `exec` for an instruction without a meaning; no arm answers it. Safe. -/
  | notModelled (mnemonic : String)
  /-- Raised by `hostReadReg` and `hostWriteReg`: register numbers 15 and above, "a model refuses it (the step does not
  exist)" (spec/10_state.md R28). Safe. -/
  | reservedRegister (n : Nat)
  /-- Raised by `hostReadMem` and `hostWriteMem`: an index at or beyond the space's cell count (spec/20_memory.md R61).
  Safe. -/
  | memoryIndex (space : Space) (i : Nat)
  /-- Raised by `hostWriteMem`: "a write to LUT" (R61). Safe. -/
  | lutWrite
  /-- Raised by `hostReadMem` and `hostWriteMem`: "any access to FB1 when NBUF = 1" (R61). Safe. -/
  | noSecondBuffer
  /-- Raised by `hostWriteMem`: a value wider than the space's cell, which R61's `WriteMem` cannot carry. Safe
  (notes/assumptions/13.md). -/
  | cellWidth (space : Space)
  /-- Raised by `runWireFrame`, the model's own entry: the bytes are no row of R100. Safe (notes/assumptions/3.md). -/
  | noWireCommand
  deriving DecidableEq, Repr

/-- One field per row of spec/10_state.md R20, then the model's own. -/
structure State where
  /-- operand registers A0..A4, R21 -/
  a0 : Word
  a1 : Word
  a2 : Word
  a3 : Word
  a4 : Word
  /-- result register R0, R22 -/
  r0 : Word
  /-- the Panel Descriptor, R25 -/
  created : Bool
  transport : Transport
  width : Half
  height : Half
  xstart : Half
  ystart : Half
  blDuty : Half
  /-- status fields, R26 -/
  fault : Bool
  faultcode : Byte
  diag : Bool
  /-- R38 -/
  kpInit : Bool
  /-- R38: false is 0, true is 1 -/
  fbSel : Bool
  /-- pin registers, R30 -/
  cs : Bool
  dc : Bool
  rst : Bool
  strobe : BitVec 2
  /-- memories, R31 to R34 -/
  pal : Mem 8
  lut : Mem 16
  fb0 : Mem 16
  fb1 : Mem 16
  xbuf : Mem 8
  /-- ROWBUF and STAGE, R35, R36: unspecified content, known by its generation (notes/assumptions/9.md) -/
  rowbufGen : Nat
  stageGen : Nat
  /-- Scan Matrix State, R37 -/
  scan : KeyMatrix
  /-- output stream OUT, oldest event first, R40 -/
  out : List Event
  /-- The model's own: resets so far, the index of the unspecified memory content (notes/assumptions/7.md). -/
  epoch : Nat
  /-- The model's own: what the ten samples of the next poll read (notes/assumptions/11.md). -/
  levels : KeyMatrix
  /-- The model's own: the host actions still to come (notes/assumptions/1.md). -/
  pending : List HostAction
  /-- The model's own: what host reads answered, oldest first (notes/assumptions/16.md). -/
  answers : List Word
  deriving DecidableEq, Repr

/-- The outcome of an operation or of a host action. -/
abbrev Result := Host.Outcome State Fault Refusal

/-- Reset (spec/10_state.md R45, spec/70_reset_and_hazards.md R270); the model's own fields by notes/assumptions/10.md. -/
def State.reset : State where
  a0 := 0
  a1 := 0
  a2 := 0
  a3 := 0
  a4 := 0
  r0 := 0
  created := false
  transport := .null
  width := 0
  height := 0
  xstart := 0
  ystart := 0
  blDuty := 0
  fault := false
  faultcode := 0
  diag := false
  kpInit := false
  fbSel := false
  cs := false
  dc := false
  rst := false
  strobe := 0
  pal := []
  lut := []
  fb0 := []
  fb1 := []
  xbuf := []
  rowbufGen := 0
  stageGen := 0
  scan := KeyMatrix.none
  out := []
  epoch := 0
  levels := KeyMatrix.none
  pending := []
  answers := []

end Sys2Proof.Machine
end

