-- ==== Sys2Proof/Machine/Operands.lean ====
section
/-! DEFINITION. How an operand is taken from its register (spec/30_encoding.md R93, spec/10_state.md R21): bits above the
narrowed width are ignored. The whole register is the register itself. -/

namespace Sys2Proof.Machine

/-- u16: `trunc_16(A[i])`. -/
def u16 (a : Word) : Half := a.setWidth 16

/-- u8: `trunc_8(A[i])`. -/
def u8 (a : Word) : Byte := a.setWidth 8

/-- s16: `trunc_16(A[i])` read as two's complement. -/
def s16 (a : Word) : Int := (u16 a).toInt

/-- u2: "the whole register compared against 0, 1, 2"; `none` is an illegal transport. -/
def transportOperand (a : Word) : Option Transport :=
  if a = 0 then some .null
  else if a = 1 then some .serial
  else if a = 2 then some .parallel
  else none

end Sys2Proof.Machine
end

