-- ==== Sys2Proof/Machine/Flags.lean ====
section
/-! DEFINITION. The flags: the fault codes, and STATUS and SCANREG as a host reads them (spec/10_state.md R26, R27;
spec/60_exceptions.md R240). There are no arithmetic condition codes (R26). -/

namespace Sys2Proof.Machine

/-- The seven faults of R240. -/
inductive Trap where
  | illegalCommand
  | noPanel
  | alreadyCreated
  | badTransport
  | lengthFault
  | sourceRange
  | rowOverflow
  deriving DecidableEq, Repr

/-- The value recorded in FAULTCODE (R240). -/
def Trap.code : Trap → Byte
  | .illegalCommand => 1
  | .noPanel => 2
  | .alreadyCreated => 3
  | .badTransport => 4
  | .lengthFault => 5
  | .sourceRange => 6
  | .rowOverflow => 7

/-- A Bool placed at bit `n` of a host register. -/
def flagBit (b : Bool) (n : Nat) : Word := if b then (1 : Word) <<< n else 0

/-- STATUS (R26): bits 7:5 and 31:16 read 0. -/
def statusWord (s : State) : Word :=
  flagBit s.fault 0 ||| flagBit s.diag 1 ||| flagBit s.created 2 ||| flagBit s.kpInit 3 ||| flagBit s.fbSel 4
    ||| (s.faultcode.setWidth 32 <<< 8)

/-- Five keys of one phase, bit `i` is key index `i`. -/
def keyBits (keys : Vector Bool 5) : Word :=
  flagBit keys[0] 0 ||| flagBit keys[1] 1 ||| flagBit keys[2] 2 ||| flagBit keys[3] 3 ||| flagBit keys[4] 4

/-- SCANREG (R27, number 14). -/
def scanWord (s : State) : Word := keyBits s.scan[0] ||| (keyBits s.scan[1] <<< 8)

/-- The 2-bit code of TRANSPORT (R25). -/
def transportCode : Transport → Word
  | .null => 0
  | .serial => 1
  | .parallel => 2

/-- FB_SEL as a buffer number. -/
def fbSelWord (b : Bool) : Word := if b then 1 else 0

end Sys2Proof.Machine
end

