-- ==== Sys2Proof/Machine/Params.lean ====
section
/-! DEFINITION. The parameters of spec/00_scope.md R6 as the rules name them, with R6's constraints, and the constants of
R5. -/

namespace Sys2Proof

/-- GAMMA, with GAMMA(0) = 0 and GAMMA(255) in {65534, 65535} (R6, spec/40_panel_protocol.md R131). -/
def Cfg.gamma (c : Cfg) (level : Byte) : Half :=
  if level = 0 then 0
  else if level = 255 then
    match c.gammaFull with
    | .d65534 => 65534
    | .d65535 => 65535
  else c.gammaBetween level

/-- WMUL. -/
def Cfg.wmul (c : Cfg) : Nat :=
  match c.widthMultiplier with
  | .one => 1
  | .two => 2

/-- NBUF is 2 iff DBUF is double. -/
def Cfg.nbuf (c : Cfg) : Nat :=
  match c.buffering with
  | .single => 1
  | .double => 2

/-- FB_CELLS, at least 1. -/
def Cfg.fbCells (c : Cfg) : Nat := c.fbCellsLessOne + 1

/-- ROWBUF_PIXELS, 1 to 65535. -/
def Cfg.rowbufPixels (c : Cfg) : Nat := c.rowbufPixelsLessOne.val + 1

/-- XBUF_BYTES, at least 1. -/
def Cfg.xbufBytes (c : Cfg) : Nat := c.xbufBytesLessOne + 1

/-! Constants the source fixes (R5). -/

def palEntries : Nat := 256
def palBytes : Nat := 768
def stagePixels : Nat := 128
def tSwresetMs : Nat := 150

end Sys2Proof
end

