-- ==== Sys2Proof/Machine/Ops.lean ====
section
/-! DEFINITION. The shared operations: memory cells, taking a fault, driving pins and emitting events, and the
procedures WriteCommand, TransportWrite, SetWindow, RawWrite and FillWindow. Each takes the configuration as an argument
where it reads one. -/

namespace Sys2Proof.Machine

/-! ## Memory cells (spec/20_memory.md R60, R68) -/

/-- The value written to cell `i`, if it has been written since reset. -/
def Mem.get? {w : Nat} (m : Mem w) (i : Nat) : Option (BitVec w) :=
  match m with
  | [] => none
  | (j, v) :: rest => if i = j then some v else if i < j then none else Mem.get? rest i

/-- MemWrite: the cell is listed in its place (notes/assumptions/8.md). -/
def Mem.set {w : Nat} (m : Mem w) (i : Nat) (v : BitVec w) : Mem w :=
  match m with
  | [] => [(i, v)]
  | (j, u) :: rest =>
    if i = j then (i, v) :: rest
    else if i < j then (i, v) :: (j, u) :: rest
    else (j, u) :: Mem.set rest i v

/-- The canonical form: indexes strictly rising, all below the space's cell count. -/
def Mem.wf {w : Nat} (size : Nat) (m : Mem w) : Bool :=
  match m with
  | [] => true
  | [(i, _)] => i < size
  | (i, _) :: (j, v) :: rest => i < j && Mem.wf size ((j, v) :: rest)

/-- MemRead(PAL, i); an unwritten cell holds its unspecified power-on content (R45, U9). -/
def palCell (s : State) (i : Nat) : Byte := (Mem.get? s.pal i).getD (Config.palPowerOn s.epoch i)

/-- MemRead(LUT, i). -/
def lutCell (s : State) (i : Nat) : Half := (Mem.get? s.lut i).getD (Config.lutPowerOn s.epoch i)

/-- MemRead(FBb, i). -/
def fbCell (s : State) (b i : Nat) : Half :=
  (Mem.get? (if b = 0 then s.fb0 else s.fb1) i).getD (Config.fbPowerOn s.epoch b i)

/-- MemRead(XBUF, i). -/
def xbufCell (s : State) (i : Nat) : Byte := (Mem.get? s.xbuf i).getD (Config.xbufPowerOn s.epoch i)

/-- The content of ROWBUF and of STAGE between operations (R35, R36). -/
def rowbufCell (s : State) (i : Nat) : Half := Config.rowbufFree s.rowbufGen i
def stageCell (s : State) (i : Nat) : Half := Config.stageFree s.stageGen i

/-- After an operation wrote ROWBUF its content is unspecified afresh (R35, U10; notes/assumptions/9.md). -/
def disturbRowbuf (s : State) : State := { s with rowbufGen := s.rowbufGen + 1 }

/-- The same for STAGE (R36). -/
def disturbStage (s : State) : State := { s with stageGen := s.stageGen + 1 }

/-- XBUF[0..len-1], the payload of WRITE_COMMAND and WRITE (spec/10_state.md R34). -/
def xbufBytes (s : State) (len : Nat) : List Byte := (List.range len).map (xbufCell s)

/-! ## Faults (spec/60_exceptions.md R241) -/

/-- `raise F`: the first fault's code is recorded, FAULT is set, and nothing else changes. -/
def raise (t : Trap) (s : State) : State :=
  { s with fault := true, faultcode := if s.fault then s.faultcode else t.code }

/-- The descriptor check every display operation starts with (R240, R243). -/
def needPanel (body : State → State) (s : State) : State := if s.created then body s else raise .noPanel s

/-! ## Events and pins (spec/00_scope.md R8, spec/10_state.md R30, R40) -/

def emit (e : Event) (s : State) : State := { s with out := s.out ++ [e] }

def driveCs (v : Bool) (s : State) : State := emit (.cs v) { s with cs := v }
def driveDc (v : Bool) (s : State) : State := emit (.dc v) { s with dc := v }
def driveRst (v : Bool) (s : State) : State := emit (.rst v) { s with rst := v }
def driveStrobe (v : BitVec 2) (s : State) : State := emit (.strobe v) { s with strobe := v }

/-- `delay_ms(n)`, `delay_us(n)`: the event and no other effect (spec/70_reset_and_hazards.md R286). -/
def delayMs (n : Nat) (s : State) : State := emit (.delayMs n) s
def delayUs (n : Nat) (s : State) : State := emit (.delayUs n) s

/-! ## Transport and frames (spec/41_transport.md R150, spec/40_panel_protocol.md R121) -/

/-- The path of a write of `n` bytes (R150); the comparison is strict. -/
def transferPath (c : Cfg) (t : Transport) (n : Nat) : Path :=
  if n > c.dmaThreshold then .block
  else if t = .serial then .clocked
  else .strobed

/-- TransportWrite (R150). -/
def transportWrite (c : Cfg) (bytes : List Byte) (s : State) : State :=
  emit (.xfer (transferPath c s.transport bytes.length) bytes) s

/-- The command part of a frame: selector low and the byte, absent for the sentinel 0 (R102, R121). -/
def sendCommandByte (c : Cfg) (cmd : Byte) (s : State) : State :=
  if cmd = 0 then s else transportWrite c [cmd] (driveDc false s)

/-- The payload part of a frame; the caller gives `none` or a non-empty list (R121). -/
def sendPayload (c : Cfg) (data : Option (List Byte)) (s : State) : State :=
  match data with
  | none => s
  | some bytes => transportWrite c bytes s

/-- WriteCommand (R121). The selector is driven high in every call (C5). -/
def writeCommand (c : Cfg) (cmd : Byte) (data : Option (List Byte)) (s : State) : State :=
  if s.transport = .null then s
  else driveCs false (sendPayload c data (driveDc true (sendCommandByte c cmd (driveCs true s))))

/-- A payload that may be empty, as WriteCommand's optional data. -/
def payload? (bytes : List Byte) : Option (List Byte) := if bytes = [] then none else some bytes

/-! ## Windows (spec/40_panel_protocol.md R124, R127) -/

/-- The bounds check of SetWindow, unsigned and before the origin is added (R124). -/
def windowOk (s : State) (x0 y0 x1 y1 : Half) : Bool :=
  !(x1 < x0 || y1 < y0 || x0 ≥ s.width || x1 ≥ s.width || y0 ≥ s.height || y1 ≥ s.height)

/-- The wire payload of one axis (spec/30_encoding.md R101). -/
def addressPayload (a b origin : Half) : List Byte := be16 (a + origin) ++ be16 (b + origin)

/-- The frames of a successful SetWindow: 0x2A, 0x2B and, on SERIAL, 0x2C. -/
def addressWindow (c : Cfg) (x0 y0 x1 y1 : Half) (s : State) : State :=
  let s := writeCommand c 0x2A (some (addressPayload x0 x1 s.xstart)) s
  let s := writeCommand c 0x2B (some (addressPayload y0 y1 s.ystart)) s
  if s.transport = .serial then writeCommand c 0x2C none s else s

/-- SetWindow (R124): whether the window was accepted, and the state. -/
def setWindow (c : Cfg) (x0 y0 x1 y1 : Half) (s : State) : Bool × State :=
  if windowOk s x0 y0 x1 y1 then (true, addressWindow c x0 y0 x1 y1 s) else (false, s)

/-- RawWrite (R127): on PARALLEL the first piece of a window write carries the memory-write command. -/
def rawWrite (c : Cfg) (bytes : List Byte) (first : Bool) (s : State) : State :=
  if s.transport = .parallel ∧ first = true then writeCommand c 0x2C (some bytes) s
  else writeCommand c 0 (some bytes) s

/-! ## Fills (spec/42_primitive_drawing.md R161) -/

/-- `count div 128` full chunks, then the remainder when there is one (R161). -/
def chunkSizes (count : Nat) : List Nat :=
  List.replicate (count / stagePixels) stagePixels
    ++ (if count % stagePixels = 0 then [] else [count % stagePixels])

/-- The chunks of a run, the first one with `first = true`. -/
def sendChunks (c : Cfg) (color : Half) (first : Bool) : List Nat → State → State
  | [], s => s
  | n :: rest, s => sendChunks c color false rest (rawWrite c (rep n (be16 color)) first s)

/-- FillWindow (R161): no pixel is written unless the window was accepted. -/
def fillWindow (c : Cfg) (x0 y0 x1 y1 : Half) (count : Nat) (color : Half) (s : State) : State :=
  match setWindow c x0 y0 x1 y1 s with
  | (false, s) => s
  | (true, s) => disturbStage (sendChunks c color true (chunkSizes count) s)

end Sys2Proof.Machine
end

