-- ==== Sys2Proof/Machine/Blit.lean ====
section
/-! DEFINITION. The Pixel Converter (spec/43_pixel_converter.md) and the Frame Blit Pipeline (spec/44_frame_blit.md):
FINISH_UPDATE, GET_BACK_BUFFER, GET_FRONT_BUFFER. -/

namespace Sys2Proof.Machine

/-- The natural RGB565 value (R190). -/
def rgb565 (r g b : Byte) : Half :=
  ((r >>> 3).setWidth 16 <<< 11) ||| ((g >>> 2).setWidth 16 <<< 5) ||| (b >>> 3).setWidth 16

/-- The value the block keeps (R191). -/
def stored (r g b : Byte) : Half := swap16 (rgb565 r g b)

/-- The stored value of palette entry `i` as PAL now stands. -/
def storedEntry (s : State) (i : Nat) : Half := stored (palCell s (3 * i)) (palCell s (3 * i + 1)) (palCell s (3 * i + 2))

/-- ConvertPalette (R192): every cell of LUT is rewritten, so the listing is complete (notes/assumptions/8.md). -/
def convertPalette (s : State) : State :=
  { s with lut := (List.range palEntries).map fun i => (i, storedEntry s i) }

/-- LookupPixel (R193). -/
def lookupPixel (s : State) (idx : Byte) : Half := lutCell s idx.toNat

/-- IndexByte(b, j) (R202): low byte of the cell when j is even, high byte when it is odd. -/
def indexByte (s : State) (b j : Nat) : Byte :=
  if j % 2 = 0 then lo8 (fbCell s b (j / 2)) else hi8 (fbCell s b (j / 2))

/-- A centring offset (R203). -/
def centre (panel frame : Nat) : Nat := if panel > frame then (panel - frame) / 2 else 0

/-- ROWBUF[0..N-1] for row `r` (R200 step 4): stored values by lookup. -/
def rowCells (s : State) (buf n r : Nat) : List Half :=
  (List.range n).map fun k => lookupPixel s (indexByte s buf (r * n + k))

/-- The bytes of a row, low byte of each cell first (spec/20_memory.md R66). -/
def rowBytes (cells : List Half) : List Byte := (cells.map le16).flatten

/-- One row of the blit: ROWBUF filled, a window of one row addressed, the row written if it was accepted. -/
def blitRow (c : Cfg) (buf n xoff yoff : Nat) (s : State) (r : Nat) : State :=
  let y : Half := BitVec.ofNat 16 (yoff + r)
  match setWindow c (BitVec.ofNat 16 xoff) y (BitVec.ofNat 16 xoff + BitVec.ofNat 16 n - 1) y (disturbRowbuf s) with
  | (false, s') => s'
  | (true, s') => rawWrite c (rowBytes (rowCells s buf n r)) true s'

/-- The rows, top to bottom (R200 step 4). -/
def blitRows (c : Cfg) (buf n height xoff yoff : Nat) (s : State) : State :=
  (List.range height).foldl (blitRow c buf n xoff yoff) s

/-- The buffer roles (R200 step 5, R206). -/
def toggleBuffers (c : Cfg) (s : State) : State :=
  match c.buffering with
  | .single => s
  | .double => { s with fbSel := !s.fbSel }

/-- Steps 2 to 5 of R200, after the checks. -/
def blitFrame (c : Cfg) (buf n height : Nat) (s : State) : State :=
  let s := convertPalette s
  let s := blitRows c buf n height (centre s.width.toNat n) (centre s.height.toNat height) s
  toggleBuffers c s

/-- FINISH_UPDATE buf, width, height (R200, R201). -/
def opFinishUpdate (c : Cfg) : State → State :=
  needPanel fun s =>
    let n := (u16 s.a1).toNat * c.wmul
    let height := (u16 s.a2).toNat
    if s.a0.toNat ≥ c.nbuf then raise .sourceRange s
    else if n > c.rowbufPixels then raise .rowOverflow s
    else if n * height > 2 * c.fbCells then raise .sourceRange s
    else blitFrame c s.a0.toNat n height s

/-- GET_BACK_BUFFER (R207). -/
def opGetBackBuffer (c : Cfg) (s : State) : State :=
  { s with r0 := match c.buffering with | .single => 0 | .double => fbSelWord s.fbSel }

/-- GET_FRONT_BUFFER (R208). -/
def opGetFrontBuffer (c : Cfg) (s : State) : State :=
  { s with r0 := match c.buffering with | .single => 0 | .double => fbSelWord (!s.fbSel) }

/-! The meanings. -/

def execFinishUpdate (s : State) : Result := .next (opFinishUpdate Config.cfg s)
def execGetBackBuffer (s : State) : Result := .next (opGetBackBuffer Config.cfg s)
def execGetFrontBuffer (s : State) : Result := .next (opGetFrontBuffer Config.cfg s)

end Sys2Proof.Machine
end

