-- ==== Sys2Proof/Machine/Drawing.lean ====
section
/-! DEFINITION. Primitive Drawing (spec/42_primitive_drawing.md): DRAW_PIXEL, HLINE, VLINE, FILL_RECT, LINE. Nothing is
clipped: a window that is not wholly on the panel is dropped whole. -/

namespace Sys2Proof.Machine

/-- DRAW_PIXEL x, y, color (R160). -/
def opDrawPixel (c : Cfg) : State → State :=
  needPanel fun s => fillWindow c (u16 s.a0) (u16 s.a1) (u16 s.a0) (u16 s.a1) 1 (u16 s.a2) s

/-- The body of HLINE (R162): a run of `length` pixels from (x, y) toward larger x. -/
def hlineRun (c : Cfg) (x y length color : Half) (s : State) : State :=
  fillWindow c x y (x + length - 1) y length.toNat color s

/-- The body of VLINE (R163). -/
def vlineRun (c : Cfg) (x y length color : Half) (s : State) : State :=
  fillWindow c x y x (y + length - 1) length.toNat color s

/-- HLINE x, y, length, color (R162). -/
def opHline (c : Cfg) : State → State :=
  needPanel fun s => hlineRun c (u16 s.a0) (u16 s.a1) (u16 s.a2) (u16 s.a3) s

/-- VLINE x, y, length, color (R163). -/
def opVline (c : Cfg) : State → State :=
  needPanel fun s => vlineRun c (u16 s.a0) (u16 s.a1) (u16 s.a2) (u16 s.a3) s

/-- FILL_RECT x, y, w, h, color (R164): one window and one chunk sequence. -/
def opFillRect (c : Cfg) : State → State :=
  needPanel fun s =>
    fillWindow c (u16 s.a0) (u16 s.a1) (u16 s.a0 + u16 s.a2 - 1) (u16 s.a1 + u16 s.a3 - 1)
      ((u16 s.a2).toNat * (u16 s.a3).toNat) (u16 s.a4) s

/-! ## The line rasterizer (R170), in Int (spec/00_scope.md R12) -/

/-- A run in loop coordinates: it starts at major coordinate `xs`, has minor coordinate `y` and `n` pixels. -/
structure Run where
  xs : Int
  y : Int
  n : Int
  deriving DecidableEq, Repr

/-- R170: strictly steeper than 45 degrees. -/
def lineSteep (x0 y0 x1 y1 : Int) : Bool := (y1 - y0).natAbs > (x1 - x0).natAbs

/-- The positions still to be visited from `x` on (`fuel` of them), with the state of the loop of R170: its runs in
order, the last unfinished run closed after the loop. -/
def lineLoop (x1 dx dy ystep : Int) : (fuel : Nat) → (x y err xs : Int) → List Run
  | 0, _, y, _, xs => if xs ≤ x1 then [⟨xs, y, x1 - xs + 1⟩] else []
  | fuel + 1, x, y, err, xs =>
    if err - dy < 0 then
      ⟨xs, y, x - xs + 1⟩ :: lineLoop x1 dx dy ystep fuel (x + 1) (y + ystep) (err - dy + dx) (x + 1)
    else lineLoop x1 dx dy ystep fuel (x + 1) y (err - dy) xs

/-- The runs between ordered endpoints, x0 <= x1, in loop coordinates. -/
def lineRunsOrdered (x0 y0 x1 y1 : Int) : List Run :=
  lineLoop x1 (x1 - x0) ((y1 - y0).natAbs : Int) (if y0 < y1 then 1 else -1) ((x1 - x0).toNat + 1)
    x0 y0 ((x1 - x0) / 2) x0

/-- The exchange of R170 that makes x run upward. -/
def lineRunsMajor (x0 y0 x1 y1 : Int) : List Run :=
  if x0 > x1 then lineRunsOrdered x1 y1 x0 y0 else lineRunsOrdered x0 y0 x1 y1

/-- The runs of LINE in the order R170 issues them: transposed first when the line is steep. -/
def lineRuns (x0 y0 x1 y1 : Int) : List Run :=
  if lineSteep x0 y0 x1 y1 then lineRunsMajor y0 x0 y1 x1 else lineRunsMajor x0 y0 x1 y1

/-- EmitRun (R171). -/
def emitRun (c : Cfg) (steep : Bool) (color : Half) (r : Run) (s : State) : State :=
  if steep then vlineRun c (trunc16 r.y) (trunc16 r.xs) (trunc16 r.n) color s
  else hlineRun c (trunc16 r.xs) (trunc16 r.y) (trunc16 r.n) color s

/-- The runs drawn one after the other. -/
def emitRuns (c : Cfg) (steep : Bool) (color : Half) : List Run → State → State
  | [], s => s
  | r :: rest, s => emitRuns c steep color rest (emitRun c steep color r s)

/-- LINE x0, y0, x1, y1, color (R170). -/
def opLine (c : Cfg) : State → State :=
  needPanel fun s =>
    emitRuns c (lineSteep (s16 s.a0) (s16 s.a1) (s16 s.a2) (s16 s.a3)) (u16 s.a4)
      (lineRuns (s16 s.a0) (s16 s.a1) (s16 s.a2) (s16 s.a3)) s

/-! The meanings. -/

def execDrawPixel (s : State) : Result := .next (opDrawPixel Config.cfg s)
def execHline (s : State) : Result := .next (opHline Config.cfg s)
def execVline (s : State) : Result := .next (opVline Config.cfg s)
def execFillRect (s : State) : Result := .next (opFillRect Config.cfg s)
def execLine (s : State) : Result := .next (opLine Config.cfg s)

end Sys2Proof.Machine
end

