-- ==== Sys2Proof/Machine/Keypad.lean ====
section
/-! DEFINITION. The Keypad Scanner (spec/45_keypad_scanner.md): KEYPAD_POLL. -/

namespace Sys2Proof.Machine

/-- SCAN[p][i] <- v. -/
def setKey (p : Fin 2) (i : Fin 5) (v : Bool) (s : State) : State :=
  { s with scan := s.scan.set p (s.scan[p].set i v) }

/-- One sample of one key (R220, R221): SCAN moves and an event is posted only on a change of level. -/
def sampleKey (c : Cfg) (p : Fin 2) (s : State) (i : Fin 5) : State :=
  if s.levels[p][i] && !s.scan[p][i] then emit (.key .down (c.keymap p i)) (setKey p i true s)
  else if !s.levels[p][i] && s.scan[p][i] then emit (.key .up (c.keymap p i)) (setKey p i false s)
  else s

/-- The strobe value of a phase: line A for phase 0, line B for phase 1. -/
def phaseStrobe (p : Fin 2) : BitVec 2 := if p = 0 then 0b01 else 0b10

/-- One phase of the poll: strobe, settle, then the five keys in ascending index. -/
def scanPhase (c : Cfg) (p : Fin 2) (s : State) : State :=
  [0, 1, 2, 3, 4].foldl (sampleKey c p) (delayUs c.tStrobeUs (driveStrobe (phaseStrobe p) s))

/-- The first-call configuration (R223). -/
def configureKeypad (s : State) : State := if s.kpInit then s else { emit .kpcfg s with kpInit := true }

/-- KEYPAD_POLL (R220); it does not need a created panel. -/
def opKeypadPoll (c : Cfg) (s : State) : State :=
  driveStrobe 0b00 (scanPhase c 1 (scanPhase c 0 (configureKeypad s)))

/-! The meaning. -/

def execKeypadPoll (s : State) : Result := .next (opKeypadPoll Config.cfg s)

end Sys2Proof.Machine
end

