-- ==== Sys2Proof/Machine/Panel.lean ====
section
/-! DEFINITION. The Panel Command Protocol (spec/40_panel_protocol.md): PANEL_CREATE, INIT, SET_BACKLIGHT,
WRITE_COMMAND, WRITE, SET_WINDOW. Each operation `op…` takes the configuration; its meaning `exec…` runs it on the
machine's own. A fault is a next state (spec/60_exceptions.md R241), so every operation is a function on states. -/

namespace Sys2Proof.Machine

/-- The fields R120 writes when no check fails, the origin included. -/
def createDescriptor (c : Cfg) (t : Transport) (w h : Half) (s : State) : State :=
  let s := { s with created := true, transport := t, width := w, height := h }
  match c.originTable t w h with
  | some (xs, ys) => { s with xstart := xs, ystart := ys }
  | none => emit (.diagUnsupportedDims t w h) { s with diag := true }

/-- PANEL_CREATE transport, width, height (R120, R248). -/
def opPanelCreate (c : Cfg) (s : State) : State :=
  if s.created then raise .alreadyCreated s
  else
    match transportOperand s.a0 with
    | none => raise .badTransport s
    | some t => createDescriptor c t (u16 s.a1) (u16 s.a2) s

/-- The hard reset: four levels and three delays (R128, D14). -/
def hardReset (c : Cfg) (s : State) : State :=
  let s := driveRst false s
  let s := delayMs c.tRst1Ms (driveRst true s)
  let s := delayMs c.tRst2Ms (driveRst false s)
  delayMs c.tRst3Ms (driveRst true s)

/-- One step of INIT: a command frame and its settle delay. -/
def initStep (c : Cfg) (cmd : Byte) (data : Option (List Byte)) (ms : Nat) (s : State) : State :=
  delayMs ms (writeCommand c cmd data s)

/-- The sequence of R128 on a transport that is not NULL. -/
def initSequence (c : Cfg) (s : State) : State :=
  let s := if c.hasRst then hardReset c s else s
  let s := initStep c 0x01 none tSwresetMs s
  let s := initStep c 0x11 none c.tSlpoutMs s
  let s := initStep c 0x3A (some [c.colmodValue]) c.tColmodMs s
  let s := initStep c 0x36 (some [c.madctlValue]) c.tMadctlMs s
  let s := initStep c 0x21 none c.tInvonMs s
  let s := initStep c 0x13 none c.tNoronMs s
  let s := fillWindow c 0 0 (s.width - 1) (s.height - 1) (s.width.toNat * s.height.toNat) 0 s
  let s := delayMs c.tFillMs s
  initStep c 0x29 none c.tDisponMs s

/-- INIT (R128). -/
def opInit (c : Cfg) : State → State :=
  needPanel fun s => if s.transport = .null then s else initSequence c s

/-- SET_BACKLIGHT level (R130, R131). -/
def opSetBacklight (c : Cfg) : State → State :=
  needPanel fun s =>
    if s.transport = .null then s
    else emit (.bl (c.gamma (u8 s.a0))) { s with blDuty := c.gamma (u8 s.a0) }

/-- WRITE_COMMAND cmd, len (R122). -/
def opWriteCommand (c : Cfg) : State → State :=
  needPanel fun s =>
    if s.a1.toNat > c.xbufBytes then raise .lengthFault s
    else writeCommand c (u8 s.a0) (payload? (xbufBytes s s.a1.toNat)) s

/-- WRITE len (R126). -/
def opWrite (c : Cfg) : State → State :=
  needPanel fun s =>
    if s.a0.toNat > c.xbufBytes then raise .lengthFault s
    else if s.a0 = 0 then s
    else rawWrite c (xbufBytes s s.a0.toNat) true s

/-- SET_WINDOW x0, y0, x1, y1 (R123): the result of the check is discarded. -/
def opSetWindow (c : Cfg) : State → State :=
  needPanel fun s => (setWindow c (u16 s.a0) (u16 s.a1) (u16 s.a2) (u16 s.a3) s).2

/-! The meanings. -/

def execPanelCreate (s : State) : Result := .next (opPanelCreate Config.cfg s)
def execInit (s : State) : Result := .next (opInit Config.cfg s)
def execSetBacklight (s : State) : Result := .next (opSetBacklight Config.cfg s)
def execWriteCommand (s : State) : Result := .next (opWriteCommand Config.cfg s)
def execWrite (s : State) : Result := .next (opWrite Config.cfg s)
def execSetWindow (s : State) : Result := .next (opSetWindow Config.cfg s)

end Sys2Proof.Machine
end

