-- ==== Sys2Proof/Machine/Wire.lean ====
section
/-! DEFINITION. The WIRE rows (spec/30_encoding.md R100, R101): "One frame on the wire is what one WriteCommand produces",
and that frame is the meaning of a wire command run alone (notes/assumptions/3.md). On the NULL transport nothing is sent
(spec/40_panel_protocol.md R121). The settle delays belong to INIT (R128), not to the commands. -/

namespace Sys2Proof.Machine

def execSoftwareReset (s : State) : Result := .next (writeCommand Config.cfg 0x01 none s)
def execSleepOut (s : State) : Result := .next (writeCommand Config.cfg 0x11 none s)
def execNormalDisplayOn (s : State) : Result := .next (writeCommand Config.cfg 0x13 none s)
def execInversionOn (s : State) : Result := .next (writeCommand Config.cfg 0x21 none s)
def execDisplayOn (s : State) : Result := .next (writeCommand Config.cfg 0x29 none s)

/-- `be16(start) ++ be16(end)` (R100, R101). -/
def execColumnAddressSet (start stop : Half) (s : State) : Result :=
  .next (writeCommand Config.cfg 0x2A (some (be16 start ++ be16 stop)) s)

def execRowAddressSet (start stop : Half) (s : State) : Result :=
  .next (writeCommand Config.cfg 0x2B (some (be16 start ++ be16 stop)) s)

/-- An empty payload is no data (R121). -/
def execMemoryWrite (bytes : List Byte) (s : State) : Result :=
  .next (writeCommand Config.cfg 0x2C (payload? bytes) s)

def execPixelFormat (value : Byte) (s : State) : Result := .next (writeCommand Config.cfg 0x3A (some [value]) s)
def execMemoryAccessControl (value : Byte) (s : State) : Result :=
  .next (writeCommand Config.cfg 0x36 (some [value]) s)

end Sys2Proof.Machine
end

