-- ==== Sys2Proof/Machine/Dispatch.lean ====
section
/-! DEFINITION. One operation on a state: one arm per constructor of Instr, each a direct call of its meaning. -/

namespace Sys2Proof.Machine

def exec (i : Instr) (s : State) : Host.Outcome State Fault Refusal :=
  match i with
  | .panelCreate => Sys2Proof.Machine.execPanelCreate s
  | .init => Sys2Proof.Machine.execInit s
  | .setBacklight => Sys2Proof.Machine.execSetBacklight s
  | .writeCommand => Sys2Proof.Machine.execWriteCommand s
  | .write => Sys2Proof.Machine.execWrite s
  | .setWindow => Sys2Proof.Machine.execSetWindow s
  | .drawPixel => Sys2Proof.Machine.execDrawPixel s
  | .hline => Sys2Proof.Machine.execHline s
  | .vline => Sys2Proof.Machine.execVline s
  | .fillRect => Sys2Proof.Machine.execFillRect s
  | .line => Sys2Proof.Machine.execLine s
  | .finishUpdate => Sys2Proof.Machine.execFinishUpdate s
  | .keypadPoll => Sys2Proof.Machine.execKeypadPoll s
  | .getBackBuffer => Sys2Proof.Machine.execGetBackBuffer s
  | .getFrontBuffer => Sys2Proof.Machine.execGetFrontBuffer s
  | .softwareReset => Sys2Proof.Machine.execSoftwareReset s
  | .sleepOut => Sys2Proof.Machine.execSleepOut s
  | .normalDisplayOn => Sys2Proof.Machine.execNormalDisplayOn s
  | .inversionOn => Sys2Proof.Machine.execInversionOn s
  | .displayOn => Sys2Proof.Machine.execDisplayOn s
  | .columnAddressSet start stop => Sys2Proof.Machine.execColumnAddressSet start stop s
  | .rowAddressSet start stop => Sys2Proof.Machine.execRowAddressSet start stop s
  | .memoryWrite payload => Sys2Proof.Machine.execMemoryWrite payload s
  | .pixelFormat value => Sys2Proof.Machine.execPixelFormat value s
  | .memoryAccessControl value => Sys2Proof.Machine.execMemoryAccessControl value s

end Sys2Proof.Machine
end

