-- ==== Sys2Proof/Machine/HostPort.lean ====
section
/-! DEFINITION. The host register interface (spec/10_state.md R27, R28; spec/20_memory.md R60, R61) and reset
(spec/70_reset_and_hazards.md R270). The write of CMD is in Machine/Command.lean. -/

namespace Sys2Proof.Machine

/-- A value returned to the host (notes/assumptions/16.md). Reading has no other effect (R69). -/
def answer (v : Word) (s : State) : State := { s with answers := s.answers ++ [v] }

/-- What `ReadReg(n)` returns (R27); `none` is a reserved number (R28). -/
def readReg (s : State) (n : Nat) : Option Word :=
  match n with
  | 0 => some 0
  | 1 => some (statusWord s)
  | 2 => some s.r0
  | 3 => some s.a0
  | 4 => some s.a1
  | 5 => some s.a2
  | 6 => some s.a3
  | 7 => some s.a4
  | 8 => some (transportCode s.transport)
  | 9 => some (s.width.setWidth 32)
  | 10 => some (s.height.setWidth 32)
  | 11 => some (s.xstart.setWidth 32)
  | 12 => some (s.ystart.setWidth 32)
  | 13 => some (s.blDuty.setWidth 32)
  | 14 => some (scanWord s)
  | _ => none

def hostReadReg (n : Nat) (s : State) : Result :=
  match readReg s n with
  | some v => .next (answer v s)
  | none => .refused (.reservedRegister n)

/-- `WriteReg(n, v)` for a register other than CMD: A0..A4 take the value, read-only registers ignore it (R27). -/
def hostWriteReg (n : Nat) (v : Word) (s : State) : Result :=
  match n with
  | 3 => .next { s with a0 := v }
  | 4 => .next { s with a1 := v }
  | 5 => .next { s with a2 := v }
  | 6 => .next { s with a3 := v }
  | 7 => .next { s with a4 := v }
  | _ => if n < 15 then .next s else .refused (.reservedRegister n)

/-- The number of cells of a space (R60). -/
def spaceCells (c : Cfg) : Space → Nat
  | .pal => palBytes
  | .lut => palEntries
  | .fb0 => c.fbCells
  | .fb1 => c.fbCells
  | .xbuf => c.xbufBytes

/-- FB1 exists only when NBUF = 2 (R60, R61). -/
def spaceExists (c : Cfg) (sp : Space) : Bool := !(sp == .fb1 && c.nbuf == 1)

/-- Whether a value fits the space's cell: u8 for PAL and XBUF (R60). -/
def fitsCell (sp : Space) (v : Half) : Bool :=
  match sp with
  | .pal | .xbuf => v.toNat < 256
  | .lut | .fb0 | .fb1 => true

/-- What `ReadMem(space, i)` returns. -/
def readCell (s : State) (sp : Space) (i : Nat) : Word :=
  match sp with
  | .pal => (palCell s i).setWidth 32
  | .lut => (lutCell s i).setWidth 32
  | .fb0 => (fbCell s 0 i).setWidth 32
  | .fb1 => (fbCell s 1 i).setWidth 32
  | .xbuf => (xbufCell s i).setWidth 32

/-- One host-writable cell takes a value; LUT has none. -/
def writeCell (sp : Space) (i : Nat) (v : Half) (s : State) : State :=
  match sp with
  | .pal => { s with pal := Mem.set s.pal i (v.setWidth 8) }
  | .lut => s
  | .fb0 => { s with fb0 := Mem.set s.fb0 i v }
  | .fb1 => { s with fb1 := Mem.set s.fb1 i v }
  | .xbuf => { s with xbuf := Mem.set s.xbuf i (v.setWidth 8) }

def hostReadMem (c : Cfg) (sp : Space) (i : Nat) (s : State) : Result :=
  if spaceExists c sp = false then .refused .noSecondBuffer
  else if i ≥ spaceCells c sp then .refused (.memoryIndex sp i)
  else .next (answer (readCell s sp i) s)

def hostWriteMem (c : Cfg) (sp : Space) (i : Nat) (v : Half) (s : State) : Result :=
  if sp = .lut then .refused .lutWrite
  else if spaceExists c sp = false then .refused .noSecondBuffer
  else if i ≥ spaceCells c sp then .refused (.memoryIndex sp i)
  else if fitsCell sp v = false then .refused (.cellWidth sp)
  else .next (writeCell sp i v s)

/-- The effect of reset on a running machine (R270): all of R45's values, memories with fresh unspecified content; what
stands outside the block (the host's list, its answers, the key levels) stays (notes/assumptions/17.md). -/
def applyReset (s : State) : State :=
  { State.reset with
    epoch := s.epoch + 1
    rowbufGen := s.rowbufGen + 1
    stageGen := s.stageGen + 1
    levels := s.levels
    pending := s.pending
    answers := s.answers }

end Sys2Proof.Machine
end

