-- ==== Sys2Proof/Machine/Command.lean ====
section
/-! DEFINITION. Starting an operation from a written command word (spec/10_state.md R23, spec/30_encoding.md R91), and
performing the host's actions one at a time (spec/00_scope.md R16). -/

namespace Sys2Proof.Machine

/-- The write of CMD: refused while FAULT = 1 (spec/60_exceptions.md R242, U16), then decoded, then run (R91, R243). -/
def runCommand (w : Word) (s : State) : Result :=
  if s.fault then .fault .commandWhileFaulted
  else
    match decodeHost w with
    | .error _ => .next (raise .illegalCommand s)
    | .ok i => exec i s

/-- One WIRE row run alone: the model's own entry (notes/assumptions/3.md). No operation starts while FAULT = 1 (R242). -/
def runWireFrame (frame : List Byte) (s : State) : Result :=
  if s.fault then .fault .commandWhileFaulted
  else
    match decodeWire frame with
    | .error _ => .refused .noWireCommand
    | .ok i => exec i s

/-- One host action. -/
def perform (a : HostAction) (s : State) : Result :=
  match a with
  | .writeReg n v => if n = 0 then runCommand v s else hostWriteReg n v s
  | .readReg n => hostReadReg n s
  | .writeMem sp i v => hostWriteMem Config.cfg sp i v s
  | .readMem sp i => hostReadMem Config.cfg sp i s
  | .setLevels levels => .next { s with levels := levels }
  | .reset => .next (applyReset s)
  | .wireFrame frame => runWireFrame frame s

/-- The next pending action is taken off the list and performed. With none left the run is over and the block idles:
"there is no halt operation and the block never stops of its own accord" (R16; notes/assumptions/2.md). -/
def stepHost (s : State) : Result :=
  match s.pending with
  | [] => .next s
  | a :: rest => perform a { s with pending := rest }

/-- The action that runs a table row's word (notes/assumptions/1.md, 3.md, 4.md). -/
def actionOf : Code → HostAction
  | .host w => .writeReg 0 w
  | .wire frame => .wireFrame frame

end Sys2Proof.Machine
end

