-- ==== Sys2Proof/Machine/Step.lean ====
section
/-! DEFINITION. One step of the machine, and a table row's word placed where the next step takes it. -/

namespace Sys2Proof.Machine

def step (s : State) : Host.Outcome State Fault Refusal := stepHost s

/-- A HOST row is the write of its word to CMD; a WIRE row is its frame (notes/assumptions/1.md). -/
def State.withFetchWord (s : State) (nbits w : Nat) : State :=
  { s with pending := actionOf (tableCode nbits w) :: s.pending }

end Sys2Proof.Machine
end

