-- ==== Sys2Proof/Machine/Assembler.lean ====
section
/-! DEFINITION. The assembly of spec/30_encoding.md R110 and R111: what the host does for one line. No line adds
behaviour: each is host writes, host reads, or one operation. -/

namespace Sys2Proof.Machine

/-- Operand writes to A0, A1, ... starting at register number `n`. -/
def operandWrites (n : Nat) : List Word → List HostAction
  | [] => []
  | v :: rest => .writeReg n v :: operandWrites (n + 1) rest

/-- `MNEMONIC v0, ..., vk` (R110): the operands from register 3 on, then the command word. A WIRE row has no such line. -/
def assemble (i : Instr) (operands : List Word) : List HostAction :=
  match encode i with
  | .host w => operandWrites 3 operands ++ [.writeReg 0 w]
  | .wire _ => []

/-- A negative LINE operand is stored as its 32-bit two's complement (R110). -/
def signedOperand (v : Int) : Word := BitVec.ofInt 32 v

/-- `PAL i, r, g, b` (R111). -/
def asmPal (i : Nat) (r g b : Byte) : List HostAction :=
  [.writeMem .pal (3 * i) (r.setWidth 16), .writeMem .pal (3 * i + 1) (g.setWidth 16),
    .writeMem .pal (3 * i + 2) (b.setWidth 16)]

/-- `FBW b, i, v` (R111). -/
def asmFbw (second : Bool) (i : Nat) (v : Half) : List HostAction := [.writeMem (if second then .fb1 else .fb0) i v]

/-- `XB i, v` (R111). -/
def asmXb (i : Nat) (v : Byte) : List HostAction := [.writeMem .xbuf i (v.setWidth 16)]

/-- `WIRECMD c` is `WRITE_COMMAND c, 0` (R111). -/
def asmWirecmd (b : Byte) : List HostAction := assemble .writeCommand [b.setWidth 32, 0]

/-- `KEYPAD_POLL {...}` (R111): the environment's levels, then the command. -/
def asmKeypadPoll (levels : KeyMatrix) : List HostAction := .setLevels levels :: assemble .keypadPoll []

/-- `RD n` (R111). -/
def asmRd (n : Nat) : List HostAction := [.readReg n]

end Sys2Proof.Machine
end

