-- ==== Sys2Proof/Machine/Observe.lean ====
section
/-! DEFINITION. What claims observe: the projections of OUT (spec/10_state.md R41) and the panel as an observer, a
function of the events of each operation and not state of the block (spec/20_memory.md R75 to R77;
notes/assumptions/18.md, 19.md). -/

namespace Sys2Proof.Machine

/-! ## Projections (R41) -/

/-- WIRE: what the panel sees. -/
def wireOf (out : List Event) : List Event :=
  out.filter fun e =>
    match e with
    | .cs _ | .dc _ | .rst _ | .bl _ | .xfer _ _ | .delayMs _ => true
    | _ => false

/-- WIREBYTES from a point where the selector is at `high`: each byte with the DC level in force. -/
def wireBytesFrom (high : Bool) : List Event → List (Bool × Byte)
  | [] => []
  | .dc level :: rest => wireBytesFrom level rest
  | .xfer _ bytes :: rest => bytes.map (fun b => (high, b)) ++ wireBytesFrom high rest
  | _ :: rest => wireBytesFrom high rest

/-- WIREBYTES of a stream since reset, where DC is low (R45). -/
def wireBytesOf (out : List Event) : List (Bool × Byte) := wireBytesFrom false out

/-- KPWIRE. -/
def kpWireOf (out : List Event) : List Event :=
  out.filter fun e =>
    match e with
    | .kpcfg | .strobe _ | .delayUs _ => true
    | _ => false

/-- EVQ: what the engine's event queue receives. -/
def evqOf (out : List Event) : List (KeyEdge × KeyCode) :=
  out.filterMap fun e =>
    match e with
    | .key edge code => some (edge, code)
    | _ => none

/-- DIAGS. -/
def diagsOf (out : List Event) : List (Transport × Half × Half) :=
  out.filterMap fun e =>
    match e with
    | .diagUnsupportedDims t w h => some (t, w, h)
    | _ => none

/-! ## Frames on the wire (spec/30_encoding.md R100) -/

/-- A frame: its command byte, absent for the sentinel, and its data bytes. -/
structure WireFrame where
  command : Option Byte
  data : List Byte
  deriving DecidableEq, Repr

/-- A transport write inside a frame: a command byte while the selector is low, data while it is high. -/
def addToFrame (high : Bool) (bytes : List Byte) (f : WireFrame) : WireFrame :=
  if high then { f with data := f.data ++ bytes } else { f with command := bytes.head? }

/-- The frames of a stream, given the frame now open and the selector's level. -/
def framesFrom (current : Option WireFrame) (high : Bool) : List Event → List WireFrame
  | [] => []
  | .cs true :: rest => framesFrom (some ⟨none, []⟩) high rest
  | .cs false :: rest => current.toList ++ framesFrom none high rest
  | .dc level :: rest => framesFrom current level rest
  | .xfer _ bytes :: rest => framesFrom (current.map (addToFrame high bytes)) high rest
  | _ :: rest => framesFrom current high rest

def framesOf (out : List Event) : List WireFrame := framesFrom none false out

/-! ## The panel (R75, R76) -/

/-- The four wire coordinates of a window, inclusive, origin added. -/
structure Window where
  ca : Nat
  cb : Nat
  ra : Nat
  rb : Nat
  deriving DecidableEq, Repr

/-- What the observer has seen of a window write in progress. -/
inductive PanelPhase where
  | idle
  | columns (ca cb : Nat)
  | addressed (w : Window)
  | writing (w : Window) (bytes : List Byte)
  deriving DecidableEq, Repr

/-- What the observer notes. -/
inductive PanelNote where
  /-- a window write: one SetWindow and the RawWrite calls that follow it in the same operation (R75) -/
  | write (w : Window) (bytes : List Byte)
  /-- pixel data outside a window write: every cell is any value, until a window write lands on it (U20) -/
  | scattered
  /-- a command whose effect on the panel is not given: every cell is any value from then on (U19, U23, R280) -/
  | disturbed
  deriving DecidableEq, Repr

/-- A window write is complete when another command comes or the operation ends. -/
def closePhase : PanelPhase → List PanelNote
  | .writing w bytes => [.write w bytes]
  | _ => []

/-- One bound pair of an address-set payload. -/
def boundPair : List Byte → Option (Nat × Nat)
  | [a, b, p, q] => some ((ofBytes a b).toNat, (ofBytes p q).toNat)
  | _ => none

/-- A command frame of an operation that generates its pixels: the notes it adds and the phase it leaves. Only the window
commands and the commands INIT sends, with INIT's own parameter bytes, leave the panel determined. -/
def panelCommand (c : Cfg) (phase : PanelPhase) (b : Byte) (data : List Byte) : List PanelNote × PanelPhase :=
  match b.toNat, phase with
  | 0x2A, _ =>
    match boundPair data with
    | some (ca, cb) => (closePhase phase, .columns ca cb)
    | none => ([.disturbed], .idle)
  | 0x2B, .columns ca cb =>
    match boundPair data with
    | some (ra, rb) => ([], .addressed ⟨ca, cb, ra, rb⟩)
    | none => ([.disturbed], .idle)
  | 0x2C, .addressed w => ([], .writing w data)
  | 0x3A, _ => if data = [c.colmodValue] then (closePhase phase, .idle) else ([.disturbed], .idle)
  | 0x36, _ => if data = [c.madctlValue] then (closePhase phase, .idle) else ([.disturbed], .idle)
  | 0x01, _ | 0x11, _ | 0x13, _ | 0x21, _ | 0x29, _ =>
    if data = [] then (closePhase phase, .idle) else ([.disturbed], .idle)
  | _, _ => ([.disturbed], .idle)

/-- A frame without a command byte continues the write in progress. -/
def panelData (phase : PanelPhase) (data : List Byte) : List PanelNote × PanelPhase :=
  match phase with
  | .writing w bytes => ([], .writing w (bytes ++ data))
  | _ => if data = [] then ([], phase) else ([.disturbed], .idle)

def panelNotesFrom (c : Cfg) (phase : PanelPhase) : List WireFrame → List PanelNote
  | [] => closePhase phase
  | f :: rest =>
    let r := match f.command with
      | some b => panelCommand c phase b f.data
      | none => panelData phase f.data
    r.1 ++ panelNotesFrom c r.2 rest

/-- The notes of an operation that generates its pixels: its own frames, read from the start of the operation. -/
def panelNotes (c : Cfg) (events : List Event) : List PanelNote := panelNotesFrom c .idle (framesOf events)

/-- A frame that the host composed (WRITE, WRITE_COMMAND, a WIRE row) or a SET_WINDOW without a write. Addressing alone
moves no pixel; pixel data has no SetWindow in its own operation, so it is no part of a window write (R75). -/
def hostFrameNotes (f : WireFrame) : List PanelNote :=
  match f.command with
  | none => if f.data = [] then [] else [.scattered]
  | some b =>
    if b = 0x2C then (if f.data = [] then [] else [.scattered])
    else if (b = 0x2A ∨ b = 0x2B) ∧ f.data.length = 4 then []
    else [.disturbed]

/-- The operations whose pixel writes the block generates itself (spec/70_reset_and_hazards.md R281). -/
def generatesPixels : List Instr := [.init, .drawPixel, .hline, .vline, .fillRect, .line, .finishUpdate]

/-- The notes of one operation, from the events it appended to OUT. -/
def operationNotes (c : Cfg) (i : Instr) (events : List Event) : List PanelNote :=
  if i ∈ generatesPixels then panelNotes c events else (framesOf events).flatMap hostFrameNotes

/-- Data bytes paired big-endian into natural values; `none` when a byte is left over. -/
def pixelsOf : List Byte → Option (List Half)
  | [] => some []
  | [_] => none
  | hi :: lo :: rest => (pixelsOf rest).map (ofBytes hi lo :: ·)

def Window.contains (w : Window) (x y : Nat) : Bool := w.ca ≤ x && x ≤ w.cb && w.ra ≤ y && y ≤ w.rb

/-- Case (a) of R76: one row, one pixel for each column. -/
def Window.isRow (w : Window) (n : Nat) : Bool := w.ra == w.rb && n == w.cb - w.ca + 1

/-- Case (b): one column, one pixel for each row. -/
def Window.isColumn (w : Window) (n : Nat) : Bool := w.ca == w.cb && n == w.rb - w.ra + 1

/-- Case (c): all pixels equal, one for each cell. -/
def Window.isUniform (w : Window) (px : List Half) : Bool :=
  px.all (fun p => px.head? == some p) && px.length == (w.cb - w.ca + 1) * (w.rb - w.ra + 1)

/-- Whether R76 says where a window write lands: its bounds do not run down, and it is one of the three cases. A window
whose end wrapped past 65535 when the origin was added is outside them (notes/assumptions/19.md). -/
def lands (w : Window) (bytes : List Byte) : Bool :=
  w.ca ≤ w.cb && w.ra ≤ w.rb &&
    match pixelsOf bytes with
    | none => false
    | some px => w.isRow px.length || w.isColumn px.length || w.isUniform px

/-- The pixel a window write that lands leaves at a cell of its window (R76). -/
def landing (w : Window) (bytes : List Byte) (x y : Nat) : Option Half :=
  match pixelsOf bytes with
  | none => none
  | some px =>
    if w.isRow px.length then px[x - w.ca]?
    else if w.isColumn px.length then px[y - w.ra]?
    else px.head?

/-- A cell of the panel: its known value if any, and whether it can still become known. -/
structure CellView where
  value : Option Half
  lost : Bool
  deriving DecidableEq, Repr

/-- What is known of a cell after a note. A window write outside the three cases of R76 has no landing rule (R77, U12), so
after it no cell is known: the model's choice, on the safe side (notes/assumptions/19.md). -/
def seeNote (x y : Nat) (v : CellView) : PanelNote → CellView
  | .disturbed => ⟨none, true⟩
  | .scattered => ⟨none, v.lost⟩
  | .write w bytes =>
    if v.lost = true then v
    else if lands w bytes then (if w.contains x y then ⟨landing w bytes x y, false⟩ else v)
    else ⟨none, false⟩

/-- What is known of the cell at column `x`, row `y` after one operation. -/
def seeOperation (c : Cfg) (i : Instr) (events : List Event) (x y : Nat) (v : CellView) : CellView :=
  (operationNotes c i events).foldl (seeNote x y) v

/-- PANEL(column x, row y) after the operations of a run, each with its events: `none` is not determined by them. -/
def panelAt (c : Cfg) (operations : List (Instr × List Event)) (x y : Nat) : Option Half :=
  (operations.foldl (fun v o => seeOperation c o.1 o.2 x y v) ⟨none, false⟩).value

/-- The operation that the next step starts, if any. -/
def startedBy (s : State) : Option Instr :=
  match s.pending with
  | .writeReg 0 w :: _ =>
    match decodeHost w with
    | .ok i => some i
    | .error _ => none
  | .wireFrame f :: _ =>
    match decodeWire f with
    | .ok i => some i
    | .error _ => none
  | _ => none

/-- The operations of a run of at most `k` steps, each with the events it appended to OUT. -/
def operationsOf : Nat → State → List (Instr × List Event)
  | 0, _ => []
  | k + 1, s =>
    match step s with
    | .next t => (startedBy s).toList.map (fun i => (i, t.out.drop s.out.length)) ++ operationsOf k t
    | _ => []

end Sys2Proof.Machine
end

