-- ==== Sys2Proof/Safety.lean ====
section
/-! DEFINITION. The terms in which claims are stated: the event lists the spec writes as `F(cc; d0 ...)`
(spec/40_panel_protocol.md, opening), the state an operation leaves when it sends them, the invariant of the machine, and
what a safe run is. -/

namespace Sys2Proof.Machine

/-! ## Event lists -/

/-- `F(cc; d0 ...)`, `F(cc)`, `F(-; d0 ...)` on transport `t`: `cmd = 0` is the sentinel, `none` is no data (R121). -/
def frameEvents (c : Cfg) (t : Transport) (cmd : Byte) (data : Option (List Byte)) : List Event :=
  [.cs true]
    ++ (if cmd = 0 then [] else [.dc false, .xfer (transferPath c t 1) [cmd]])
    ++ [.dc true]
    ++ (match data with
        | none => []
        | some bytes => [.xfer (transferPath c t bytes.length) bytes])
    ++ [.cs false]

/-- The frames of a window that was accepted (R124). -/
def windowEvents (c : Cfg) (s : State) (x0 y0 x1 y1 : Half) : List Event :=
  frameEvents c s.transport 0x2A (some (be16 (x0 + s.xstart) ++ be16 (x1 + s.xstart)))
    ++ frameEvents c s.transport 0x2B (some (be16 (y0 + s.ystart) ++ be16 (y1 + s.ystart)))
    ++ (if s.transport = .serial then frameEvents c s.transport 0x2C none else [])

/-- The frame of one piece of a window write (R127). -/
def pieceEvents (c : Cfg) (t : Transport) (first : Bool) (bytes : List Byte) : List Event :=
  frameEvents c t (if t = .parallel ∧ first = true then 0x2C else 0) (some bytes)

/-- The frames of a fill's chunks, given their sizes in pixels (R161). -/
def chunkEvents (c : Cfg) (t : Transport) (color : Half) (first : Bool) : List Nat → List Event
  | [] => []
  | n :: rest => pieceEvents c t first (rep n (be16 color)) ++ chunkEvents c t color false rest

/-- A fill that was accepted (R161). -/
def fillEvents (c : Cfg) (s : State) (x0 y0 x1 y1 : Half) (count : Nat) (color : Half) : List Event :=
  windowEvents c s x0 y0 x1 y1 ++ chunkEvents c s.transport color true (chunkSizes count)

/-- The fill of one run of a line, nothing when its window is rejected (R171). -/
def runEvents (c : Cfg) (s : State) (steep : Bool) (color : Half) (r : Run) : List Event :=
  let x := trunc16 (if steep then r.y else r.xs)
  let y := trunc16 (if steep then r.xs else r.y)
  let n := trunc16 r.n
  let x1 := if steep then x else x + n - 1
  let y1 := if steep then y + n - 1 else y
  if windowOk s x y x1 y1 then fillEvents c s x y x1 y1 n.toNat color else []

/-- The natural RGB565 value of palette entry `i` as PAL now stands (R190). -/
def naturalEntry (s : State) (i : Nat) : Half := rgb565 (palCell s (3 * i)) (palCell s (3 * i + 1)) (palCell s (3 * i + 2))

/-- IndexByte(b, j) as R202 writes it: bits 7:0 of the cell for even j, bits 15:8 for odd j. -/
def frameIndex (s : State) (buf j : Nat) : Byte :=
  if j % 2 = 0 then (fbCell s buf (j / 2)).extractLsb' 0 8 else (fbCell s buf (j / 2)).extractLsb' 8 8

/-- A centring offset as R203 writes it. -/
def frameOffset (panel frame : Nat) : Nat := if frame < panel then (panel - frame) / 2 else 0

/-- The bytes of row `r` on the wire: `be16` of the natural value of each index byte's entry (R200, R204). -/
def rowWireBytes (s : State) (buf n r : Nat) : List Byte :=
  ((List.range n).map fun k => be16 (naturalEntry s (frameIndex s buf (r * n + k)).toNat)).flatten

/-- The events of row `r` of a blit of `n` pixels a row: one window and one write, nothing when it does not fit the
panel (R200, R203). -/
def rowEvents (c : Cfg) (s : State) (buf n height r : Nat) : List Event :=
  let x := frameOffset s.width.toNat n
  let y := frameOffset s.height.toNat height + r
  if 1 ≤ n ∧ n ≤ s.width.toNat ∧ y < s.height.toNat then
    windowEvents c s (BitVec.ofNat 16 x) (BitVec.ofNat 16 y) (BitVec.ofNat 16 (x + n - 1)) (BitVec.ofNat 16 y)
      ++ pieceEvents c s.transport true (rowWireBytes s buf n r)
  else []

/-- A step of INIT: a frame and its delay (R128). -/
def stepEvents (c : Cfg) (t : Transport) (cmd : Byte) (data : Option (List Byte)) (ms : Nat) : List Event :=
  frameEvents c t cmd data ++ [.delayMs ms]

/-- The hard reset of a panel that has a reset line (R128). -/
def hardResetEvents (c : Cfg) : List Event :=
  if c.hasRst then
    [.rst false, .rst true, .delayMs c.tRst1Ms, .rst false, .delayMs c.tRst2Ms, .rst true, .delayMs c.tRst3Ms]
  else []

/-- The whole of INIT (R128). -/
def initEvents (c : Cfg) (s : State) : List Event :=
  hardResetEvents c
    ++ stepEvents c s.transport 0x01 none 150
    ++ stepEvents c s.transport 0x11 none c.tSlpoutMs
    ++ stepEvents c s.transport 0x3A (some [c.colmodValue]) c.tColmodMs
    ++ stepEvents c s.transport 0x36 (some [c.madctlValue]) c.tMadctlMs
    ++ stepEvents c s.transport 0x21 none c.tInvonMs
    ++ stepEvents c s.transport 0x13 none c.tNoronMs
    ++ (if s.width = 0 ∨ s.height = 0 then []
        else fillEvents c s 0 0 (s.width - 1) (s.height - 1) (s.width.toNat * s.height.toNat) 0)
    ++ [.delayMs c.tFillMs]
    ++ stepEvents c s.transport 0x29 none c.tDisponMs

/-- The event of one key of a poll, by the table of R221. -/
def keyEvent (c : Cfg) (s : State) (p : Fin 2) (i : Fin 5) : List Event :=
  if s.levels[p][i] = s.scan[p][i] then []
  else [.key (if s.levels[p][i] then .down else .up) (c.keymap p i)]

/-- The KEY events of one phase, in ascending key index (R220). -/
def phaseEvents (c : Cfg) (s : State) (p : Fin 2) : List Event :=
  keyEvent c s p 0 ++ keyEvent c s p 1 ++ keyEvent c s p 2 ++ keyEvent c s p 3 ++ keyEvent c s p 4

/-- The events of one poll, in order (R220). -/
def pollEvents (c : Cfg) (s : State) : List Event :=
  (if s.kpInit then [] else [.kpcfg])
    ++ [.strobe 0b01, .delayUs c.tStrobeUs] ++ phaseEvents c s 0
    ++ [.strobe 0b10, .delayUs c.tStrobeUs] ++ phaseEvents c s 1
    ++ [.strobe 0b00]

/-! ## States -/

/-- The state after frames were sent: chip-select deasserted, selector high, the events appended. -/
def sent (s : State) (events : List Event) : State := { s with cs := false, dc := true, out := s.out ++ events }

/-- The state after a fill that was accepted on a transport that is not NULL. -/
def filled (s : State) (events : List Event) : State := { sent s events with stageGen := s.stageGen + 1 }

/-- The state after one frame: nothing changes on NULL (R121, D13). -/
def framed (c : Cfg) (s : State) (cmd : Byte) (data : Option (List Byte)) : State :=
  if s.transport = .null then s else sent s (frameEvents c s.transport cmd data)

/-- The state after a fill whose window was accepted; on NULL nothing is sent (R161, D13). STAGE is disturbed. -/
def drawn (c : Cfg) (s : State) (x0 y0 x1 y1 : Half) (count : Nat) (color : Half) : State :=
  if s.transport = .null then disturbStage s else filled s (fillEvents c s x0 y0 x1 y1 count color)

/-- The state after fault `code` was taken (R241). -/
def faulted (s : State) (code : Byte) : State :=
  { s with fault := true, faultcode := if s.fault then s.faultcode else code }

/-- A command frame of the address-set class (R100). -/
def isAddressSet (f : WireFrame) : Bool := f.command == some 0x2A || f.command == some 0x2B

/-- The selector drives of a stream (R121). -/
def selectorDrives (out : List Event) : List Bool :=
  out.filterMap fun e =>
    match e with
    | .dc level => some level
    | _ => none

/-- The pixels of a run in loop coordinates, in order (R170). -/
def runPixels (r : Run) : List (Int × Int) := (List.range r.n.toNat).map fun (k : Nat) => (r.xs + (k : Int), r.y)

/-- The operations that need the Panel Descriptor (R240, NoPanel). -/
def needsPanel : List Instr :=
  [.init, .setBacklight, .writeCommand, .write, .setWindow, .drawPixel, .hline, .vline, .fillRect, .line, .finishUpdate]

/-! ## The invariant -/

/-- What every step keeps, in the spec's terms: memories are canonical listings of cells that exist, the status fields
agree, the pins rest between operations, and nothing of the display or of the keypad stands before its first use. -/
structure Inv (s : State) : Prop where
  pal : Mem.wf palBytes s.pal = true
  lut : Mem.wf palEntries s.lut = true
  fb0 : Mem.wf Config.cfg.fbCells s.fb0 = true
  fb1 : Mem.wf Config.cfg.fbCells s.fb1 = true
  noSecondBuffer : Config.cfg.buffering = .single → s.fb1 = [] ∧ s.fbSel = false
  xbuf : Mem.wf Config.cfg.xbufBytes s.xbuf = true
  /-- R240: code 0 means no fault, and there are seven codes. -/
  faultcode : s.faultcode ≤ 7
  faultAgrees : s.fault = true ↔ s.faultcode ≠ 0
  /-- R121: a frame ends with chip-select deasserted. -/
  csRests : s.cs = false
  /-- R228 (c): STROBE is 0b00 before and after every poll. -/
  strobeRests : s.strobe = 0
  /-- R25, R45: before PANEL_CREATE the descriptor, the panel pins and the diagnostic bit are as reset left them. -/
  uncreated : s.created = false →
    s.transport = .null ∧ s.width = 0 ∧ s.height = 0 ∧ s.xstart = 0 ∧ s.ystart = 0 ∧ s.blDuty = 0 ∧ s.diag = false
      ∧ s.dc = false ∧ s.rst = false
  /-- R223, R45: before the first poll no key is remembered. -/
  unpolled : s.kpInit = false → s.scan = KeyMatrix.none

/-- A safe run so far: no fault was taken (spec/60_exceptions.md R240). -/
def Safe (s : State) : Prop := s.fault = false

end Sys2Proof.Machine
end

