-- ==== Sys2Proof/Certificates/Slice0/Obligations.lean ====
section
/-! DEFINITION. The statements for the provers. `Config.cfg` is opaque, so each holds for every configuration; where a
hypothesis is about the configuration the statement says `∀ c` and speaks of the operation `op… c`, of which the meaning
`exec` is the case `Config.cfg`. The event lists and states they use are in Safety.lean. -/

open Sys2Proof Sys2Proof.Machine

/-! ## Encodings -/

/-- R92, R100: words and frames written out from the tables. A sanity statement. -/
def Obligations.WrittenOutWordsDecode : Prop :=
  decodeHost 0x00000001 = .ok .panelCreate
    ∧ decodeHost 0x0000000B = .ok .line
    ∧ decodeHost 0x0000000C = .ok .finishUpdate
    ∧ decodeHost 0x0000000D = .ok .keypadPoll
    ∧ decodeWire [0x2A, 0x00, 0x34, 0x00, 0xBA] = .ok (.columnAddressSet 52 186)
    ∧ decodeWire [0x2C, 0xF8, 0x00] = .ok (.memoryWrite [0xF8, 0x00])
    ∧ decodeWire [0x3A, 0x55] = .ok (.pixelFormat 0x55)

/-- Decoding the encoding of any well-formed operation gives it back, with every operand at every value. -/
def Obligations.DecodeOfEncodeIsTheInstruction : Prop :=
  ∀ i : Instr, i.wellFormed = true → decode (encode i) = .ok i

/-- Each word and each frame has one meaning: what decodes is the encoding of a well-formed operation. -/
def Obligations.EncodeOfDecodeIsTheCode : Prop :=
  ∀ (k : Code) (i : Instr), decode k = .ok i → encode i = k ∧ i.wellFormed = true

/-- R94: the legal command words are exactly 1 to 15, and any other word written to CMD raises IllegalCommand. -/
def Obligations.OnlyFifteenCommandWordsAreLegal : Prop :=
  (∀ w : Word, (∃ i, decodeHost w = .ok i) ↔ w.extractLsb' 8 24 = 0 ∧ 0x01 ≤ w.toNat % 256 ∧ w.toNat % 256 ≤ 0x0F)
    ∧ ∀ (s : State) (w : Word) (rest : List HostAction), s.pending = .writeReg 0 w :: rest → s.fault = false →
        (w.extractLsb' 8 24 ≠ 0 ∨ w.toNat % 256 = 0x00 ∨ 0x10 ≤ w.toNat % 256) →
        step s = .next (faulted { s with pending := rest } 1)

/-- R110: a line is its operand writes from register 3 on, then the command word; the rule's own example. -/
def Obligations.AssembledLineIsRegisterWrites : Prop :=
  (∀ (i : Instr) (operands : List Word) (w : Word), encode i = .host w →
      (assemble i operands).length = operands.length + 1
        ∧ (assemble i operands).getLast? = some (.writeReg 0 w)
        ∧ ∀ k (hk : k < operands.length), (assemble i operands)[k]? = some (.writeReg (3 + k) operands[k]))
    ∧ assemble .hline [10, 5, 300, 0x07E0]
        = [.writeReg 3 10, .writeReg 4 5, .writeReg 5 300, .writeReg 6 0x07E0, .writeReg 0 0x00000008]

/-! ## Steps -/

/-- R91: the write of CMD. While FAULT = 1 it is refused; a word without an operation raises IllegalCommand; otherwise
the operation runs. The step takes the action off the host's list first. -/
def Obligations.StepRunsTheWrittenCommand : Prop :=
  ∀ (s : State) (w : Word) (rest : List HostAction), s.pending = .writeReg 0 w :: rest →
    (s.fault = true → step s = .fault .commandWhileFaulted)
      ∧ (s.fault = false → ∀ e, decodeHost w = .error e → step s = .next (faulted { s with pending := rest } 1))
      ∧ (s.fault = false → ∀ i, decodeHost w = .ok i → step s = exec i { s with pending := rest })

/-- The model's own entry for one WIRE row (notes/assumptions/3.md), and the idle step (notes/assumptions/2.md). -/
def Obligations.StepRunsAWireFrameOrIdles : Prop :=
  (∀ (s : State) (f : List Byte) (rest : List HostAction) (i : Instr), s.pending = .wireFrame f :: rest →
      s.fault = false → decodeWire f = .ok i → step s = exec i { s with pending := rest })
    ∧ ∀ s : State, s.pending = [] → step s = .next s

/-- R91, R92, R100: a table row's word placed by `withFetchWord` is what the next step runs. How a word is placed and how
a row's width names its encoding are the model's choice (notes/assumptions/1.md, 4.md), and so is running a WIRE row alone
(notes/assumptions/3.md). -/
def Obligations.PlacedWordIsWhatStepRuns : Prop :=
  ∀ (s : State) (nbits w : Nat) (i : Instr), s.fault = false → decodeTableWord nbits w = some i →
    step (s.withFetchWord nbits w) = exec i s

/-- R40: OUT only grows; only reset starts it again. -/
def Obligations.OutputStreamOnlyGrows : Prop :=
  ∀ s t : State, step s = .next t → (∀ rest, s.pending ≠ .reset :: rest) → ∃ events, t.out = s.out ++ events

/-! ## Faults -/

/-- R240: every fault, with its code and its causes, in the order of the checks, and nothing but FAULT and FAULTCODE
changed. The checks of WRITE_COMMAND, WRITE and FINISH_UPDATE read the configuration, so they are said of every one. -/
def Obligations.FaultCausesAndTheirCodes : Prop :=
  (∀ (s : State) (w : Word) (rest : List HostAction), s.pending = .writeReg 0 w :: rest → s.fault = false →
      w.extractLsb' 8 24 ≠ 0 ∨ w.toNat % 256 = 0x00 ∨ 0x10 ≤ w.toNat % 256 →
      step s = .next (faulted { s with pending := rest } 1))
    ∧ (∀ (i : Instr) (s : State), i ∈ needsPanel → s.created = false → exec i s = .next (faulted s 2))
    ∧ (∀ s : State, s.created = true → exec .panelCreate s = .next (faulted s 3))
    ∧ (∀ s : State, s.created = false → 2 < s.a0.toNat → exec .panelCreate s = .next (faulted s 4))
    ∧ (∀ s : State, exec .writeCommand s = .next (opWriteCommand Config.cfg s)
        ∧ exec .write s = .next (opWrite Config.cfg s) ∧ exec .finishUpdate s = .next (opFinishUpdate Config.cfg s))
    ∧ (∀ c s, s.created = true → c.xbufBytes < s.a1.toNat → opWriteCommand c s = faulted s 5)
    ∧ (∀ c s, s.created = true → c.xbufBytes < s.a0.toNat → opWrite c s = faulted s 5)
    ∧ (∀ c s, s.created = true → c.nbuf ≤ s.a0.toNat → opFinishUpdate c s = faulted s 6)
    ∧ (∀ c s, s.created = true → s.a0.toNat < c.nbuf → c.rowbufPixels < (u16 s.a1).toNat * c.wmul →
        opFinishUpdate c s = faulted s 7)
    ∧ (∀ c s, s.created = true → s.a0.toNat < c.nbuf → (u16 s.a1).toNat * c.wmul ≤ c.rowbufPixels →
        2 * c.fbCells < (u16 s.a1).toNat * c.wmul * (u16 s.a2).toNat → opFinishUpdate c s = faulted s 6)
    ∧ ∀ (i : Instr) (s t : State), i ∈ [.keypadPoll, .getBackBuffer, .getFrontBuffer] → exec i s = .next t →
        t.fault = s.fault ∧ t.faultcode = s.faultcode

/-- R241: an operation either leaves both status fields alone, or took one of the faults and changed nothing else; a
fault code already recorded stays. -/
def Obligations.TakingAFaultChangesOnlyStatus : Prop :=
  ∀ (i : Instr) (s t : State), exec i s = .next t →
    (t.fault = s.fault ∧ t.faultcode = s.faultcode) ∨ ∃ code : Byte, 2 ≤ code ∧ code ≤ 7 ∧ t = faulted s code

/-- R242: while FAULT = 1 a command stops, host reads and writes work, the fault stays, and reset clears it. The stop is
the model's choice for "refused" (notes/assumptions/12.md). -/
def Obligations.FaultedBlockOnlyServesHostAccess : Prop :=
  ∀ s : State, s.fault = true →
    (∀ w rest, s.pending = .writeReg 0 w :: rest → step s = .fault .commandWhileFaulted)
      ∧ (∀ n rest, n < 15 → s.pending = .readReg n :: rest →
          ∃ v, readReg s n = some v ∧ step s = .next (answer v { s with pending := rest }))
      ∧ (∀ n v rest, 3 ≤ n → n ≤ 7 → s.pending = .writeReg n v :: rest →
          ∃ t, step s = .next t ∧ readReg t n = some v ∧ t.pending = rest)
      ∧ (∀ sp i rest, spaceExists Config.cfg sp = true → i < spaceCells Config.cfg sp → s.pending = .readMem sp i :: rest →
          step s = .next (answer (readCell s sp i) { s with pending := rest }))
      ∧ (∀ sp i v rest, sp ≠ .lut → spaceExists Config.cfg sp = true → i < spaceCells Config.cfg sp →
          fitsCell sp v = true → s.pending = .writeMem sp i v :: rest →
          step s = .next (writeCell sp i v { s with pending := rest }))
      ∧ (∀ t, step s = .next t → (∀ rest, s.pending ≠ .reset :: rest) → t.fault = true ∧ t.faultcode = s.faultcode)
      ∧ (∀ rest, s.pending = .reset :: rest → ∃ t, step s = .next t ∧ t.fault = false ∧ t.faultcode = 0)

/-! ## Registers and memories -/

/-- R21, R27: a value written to A0..A4 is read back, and no other register changes its reading. -/
def Obligations.RegisterReadAfterWrite : Prop :=
  ∀ (s : State) (n m : Nat) (v : Word) (rest : List HostAction), 3 ≤ n → n ≤ 7 → m < 15 →
    s.pending = .writeReg n v :: .readReg m :: rest →
    ∃ t u old, step s = .next t ∧ step t = .next u ∧ readReg s m = some old
      ∧ u.answers = s.answers ++ [if m = n then v else old]
      ∧ u.pending = rest

/-- R27, R28: a write to a read-only register changes nothing; a reserved number is refused. -/
def Obligations.ReadOnlyAndReservedRegisters : Prop :=
  ∀ (s : State) (n : Nat) (v : Word) (rest : List HostAction),
    ((n = 1 ∨ n = 2 ∨ (8 ≤ n ∧ n ≤ 14)) → s.pending = .writeReg n v :: rest → step s = .next { s with pending := rest })
      ∧ (15 ≤ n → s.pending = .writeReg n v :: rest → step s = .refused (.reservedRegister n))
      ∧ (15 ≤ n → s.pending = .readReg n :: rest → step s = .refused (.reservedRegister n))

/-- R23, R27: what the host reads at every register number but 1 and 14, whose bits StatusAndScanLayout gives. Reading
changes nothing of the block; the answer is kept in the model's own field (notes/assumptions/16.md). -/
def Obligations.RegisterNumbersReadTheirContents : Prop :=
  ∀ (s : State) (n : Nat) (v : Word) (rest : List HostAction), s.pending = .readReg n :: rest →
    (n, v) ∈ [(0, 0), (2, s.r0), (3, s.a0), (4, s.a1), (5, s.a2), (6, s.a3), (7, s.a4),
      (8, match s.transport with | .null => 0 | .serial => 1 | .parallel => 2),
      (9, s.width.setWidth 32), (10, s.height.setWidth 32), (11, s.xstart.setWidth 32), (12, s.ystart.setWidth 32),
      (13, s.blDuty.setWidth 32)] →
    step s = .next { s with pending := rest, answers := s.answers ++ [v] }

/-- R26, R27: the bits of STATUS and of SCANREG. -/
def Obligations.StatusAndScanLayout : Prop :=
  ∀ s : State, ∃ status scan,
    readReg s 1 = some status ∧ readReg s 14 = some scan
      ∧ status.getLsbD 0 = s.fault ∧ status.getLsbD 1 = s.diag ∧ status.getLsbD 2 = s.created
      ∧ status.getLsbD 3 = s.kpInit ∧ status.getLsbD 4 = s.fbSel
      ∧ status.extractLsb' 5 3 = 0 ∧ status.extractLsb' 8 8 = s.faultcode ∧ status.extractLsb' 16 16 = 0
      ∧ (∀ i : Fin 5, scan.getLsbD i = s.scan[(0 : Fin 2)][i] ∧ scan.getLsbD (8 + i) = s.scan[(1 : Fin 2)][i])
      ∧ scan.extractLsb' 5 3 = 0 ∧ scan.extractLsb' 13 19 = 0

/-- R21, R22: no operation writes an operand register, and only the two GET operations write R0. -/
def Obligations.OperandsSurviveEveryOperation : Prop :=
  ∀ (i : Instr) (s t : State), exec i s = .next t →
    t.a0 = s.a0 ∧ t.a1 = s.a1 ∧ t.a2 = s.a2 ∧ t.a3 = s.a3 ∧ t.a4 = s.a4
      ∧ (i ≠ .getBackBuffer → i ≠ .getFrontBuffer → t.r0 = s.r0)

/-- R61: a cell written is read back, and every other cell of every space reads as before. -/
def Obligations.CellReadAfterWrite : Prop :=
  ∀ (s : State) (sp sq : Space) (i j : Nat) (v : Half) (rest : List HostAction),
    sp ≠ .lut → spaceExists Config.cfg sp = true → i < spaceCells Config.cfg sp → fitsCell sp v = true →
    spaceExists Config.cfg sq = true → j < spaceCells Config.cfg sq →
    s.pending = .writeMem sp i v :: .readMem sq j :: rest →
    ∃ t u, step s = .next t ∧ step t = .next u ∧ u.pending = rest
      ∧ u.answers = s.answers ++ [if sq = sp ∧ j = i then v.setWidth 32 else readCell s sq j]

/-- R61: an index beyond the space, a write to LUT and an absent FB1 have no step. -/
def Obligations.AccessesWithoutMeaningAreRefused : Prop :=
  (∀ c sp i s, spaceExists c sp = true → spaceCells c sp ≤ i → hostReadMem c sp i s = .refused (.memoryIndex sp i))
    ∧ (∀ c sp i v s, sp ≠ .lut → spaceExists c sp = true → spaceCells c sp ≤ i →
        hostWriteMem c sp i v s = .refused (.memoryIndex sp i))
    ∧ (∀ c i v s, hostWriteMem c .lut i v s = .refused .lutWrite)
    ∧ (∀ c i v s, c.nbuf = 1 →
        hostReadMem c .fb1 i s = .refused .noSecondBuffer ∧ hostWriteMem c .fb1 i v s = .refused .noSecondBuffer)
    ∧ ∀ (s : State) (rest : List HostAction) (sp : Space) (i : Nat) (v : Half),
        (s.pending = .readMem sp i :: rest → step s = hostReadMem Config.cfg sp i { s with pending := rest })
          ∧ (s.pending = .writeMem sp i v :: rest → step s = hostWriteMem Config.cfg sp i v { s with pending := rest })

/-- R31 to R34, R283: no operation writes PAL, a framebuffer or XBUF, and only FINISH_UPDATE writes LUT: every cell of
every space reads as before. -/
def Obligations.OperationsLeaveHostMemoryAlone : Prop :=
  ∀ (i : Instr) (s t : State), exec i s = .next t →
    (∀ (sp : Space) (j : Nat), sp ≠ .lut → readCell t sp j = readCell s sp j)
      ∧ (i ≠ .finishUpdate → ∀ j, readCell t .lut j = readCell s .lut j)

/-! ## The panel command protocol -/

/-- R120, R25, R27: PANEL_CREATE completes before a creation and with a legal transport, supported size or not: the
descriptor reads back as its operands, the origin is the table's or stays, and nothing else changes. -/
def Obligations.PanelCreateCompletes : Prop :=
  ∀ s : State, s.created = false → s.a0.toNat ≤ 2 →
    ∃ t, exec .panelCreate s = .next t ∧ t.created = true
      ∧ readReg t 8 = some s.a0 ∧ readReg t 9 = some (s.a1 &&& 0xFFFF) ∧ readReg t 10 = some (s.a2 &&& 0xFFFF)
      ∧ (∀ xs ys, Config.cfg.originTable t.transport t.width t.height = some (xs, ys) →
          t.xstart = xs ∧ t.ystart = ys ∧ t.diag = s.diag ∧ t.out = s.out)
      ∧ (Config.cfg.originTable t.transport t.width t.height = none →
          t.xstart = s.xstart ∧ t.ystart = s.ystart ∧ t.diag = true
            ∧ t.out = s.out ++ [.diagUnsupportedDims t.transport t.width t.height])
      ∧ t = { s with
              created := t.created, transport := t.transport, width := t.width, height := t.height
              xstart := t.xstart, ystart := t.ystart, diag := t.diag, out := t.out }

/-- R120: PANEL_CREATE, with its two faults and both readings of the origin table. -/
def Obligations.PanelCreateSetsTheDescriptor : Prop :=
  decodeHost 0x01 = .ok .panelCreate ∧ ∀ s : State,
    exec .panelCreate s = .next
      (if s.created = true then faulted s 3
        else
          match transportOperand s.a0 with
          | none => faulted s 4
          | some tr =>
            match Config.cfg.originTable tr (u16 s.a1) (u16 s.a2) with
            | some (xs, ys) =>
              { s with
                created := true, transport := tr, width := u16 s.a1, height := u16 s.a2, xstart := xs, ystart := ys }
            | none =>
              { s with
                created := true, transport := tr, width := u16 s.a1, height := u16 s.a2, diag := true
                out := s.out ++ [.diagUnsupportedDims tr (u16 s.a1) (u16 s.a2)] })

/-- R25: once created the descriptor is never destroyed or changed by an operation, and only PANEL_CREATE makes it. -/
def Obligations.DescriptorIsFixedOnceCreated : Prop :=
  ∀ (i : Instr) (s t : State), exec i s = .next t →
    (s.created = true → t.created = true)
      ∧ (s.created = true ∨ i ≠ .panelCreate →
          t.created = s.created ∧ t.transport = s.transport ∧ t.width = s.width ∧ t.height = s.height
            ∧ t.xstart = s.xstart ∧ t.ystart = s.ystart ∧ t.diag = s.diag)

/-- R121, R122: WRITE_COMMAND, with its two faults, sends one frame; its selector drives are two, or one for the
sentinel. -/
def Obligations.WriteCommandSendsOneFrame : Prop :=
  decodeHost 0x04 = .ok .writeCommand ∧ ∀ s : State,
    exec .writeCommand s = .next
        (if s.created = false then faulted s 2
          else if Config.cfg.xbufBytes < s.a1.toNat then faulted s 5
          else
            framed Config.cfg s (u8 s.a0)
              (if s.a1 = 0 then none else some ((List.range s.a1.toNat).map (xbufCell s))))
      ∧ ∀ (t : Transport) (data : Option (List Byte)),
          selectorDrives (frameEvents Config.cfg t (u8 s.a0) data) = if u8 s.a0 = 0 then [true] else [false, true]

/-- R126, R127: WRITE, with its two faults, sends its bytes in one frame, with the memory-write command on PARALLEL, and
nothing when there is nothing to write. -/
def Obligations.WriteSendsTheBuffer : Prop :=
  decodeHost 0x05 = .ok .write ∧ ∀ s : State,
    exec .write s = .next
      (if s.created = false then faulted s 2
        else if Config.cfg.xbufBytes < s.a0.toNat then faulted s 5
        else if s.a0 = 0 then s
        else
          framed Config.cfg s (if s.transport = .parallel then 0x2C else 0)
            (some ((List.range s.a0.toNat).map (xbufCell s))))

/-- R123, R124: SET_WINDOW sends the window's frames when both corners are on the panel and ordered, and otherwise does
nothing. -/
def Obligations.SetWindowSendsOrRejects : Prop :=
  decodeHost 0x06 = .ok .setWindow ∧ ∀ s : State,
    exec .setWindow s = .next
      (if s.created = false then faulted s 2
        else if (u16 s.a0).toNat ≤ (u16 s.a2).toNat ∧ (u16 s.a1).toNat ≤ (u16 s.a3).toNat
            ∧ (u16 s.a2).toNat < s.width.toNat ∧ (u16 s.a3).toNat < s.height.toNat ∧ s.transport ≠ .null then
          sent s (windowEvents Config.cfg s (u16 s.a0) (u16 s.a1) (u16 s.a2) (u16 s.a3))
        else s)

/-- R125: exactly two address-set commands, each with the two bounds offset by the origin, or no command at all. -/
def Obligations.SetWindowIssuesTwoAddressSets : Prop :=
  ∀ s : State, s.created = true → s.transport ≠ .null → ∃ t events, exec .setWindow s = .next t ∧ t.out = s.out ++ events
    ∧ if (u16 s.a0).toNat ≤ (u16 s.a2).toNat ∧ (u16 s.a1).toNat ≤ (u16 s.a3).toNat
          ∧ (u16 s.a2).toNat < s.width.toNat ∧ (u16 s.a3).toNat < s.height.toNat then
        (framesOf events).filter isAddressSet
          = [⟨some 0x2A, be16 (u16 s.a0 + s.xstart) ++ be16 (u16 s.a2 + s.xstart)⟩,
             ⟨some 0x2B, be16 (u16 s.a1 + s.ystart) ++ be16 (u16 s.a3 + s.ystart)⟩]
      else events = []

/-- R128: INIT sends the whole sequence with every delay in its place; on NULL it does nothing. The generation of STAGE's
unspecified content is the model's (notes/assumptions/9.md). -/
def Obligations.InitSendsTheSequence : Prop :=
  decodeHost 0x02 = .ok .init ∧ ∀ s : State,
    exec .init s = .next
      (if s.created = false then faulted s 2
        else if s.transport = .null then s
        else
          { s with
            rst := if Config.cfg.hasRst then true else s.rst
            cs := false
            dc := true
            out := s.out ++ initEvents Config.cfg s
            stageGen := if s.width = 0 ∨ s.height = 0 then s.stageGen else s.stageGen + 1 })

/-- R130, R131: the duty is GAMMA of the level, which is 0 for level 0 and 65534 or 65535 for level 255. -/
def Obligations.BacklightDrivesTheGammaDuty : Prop :=
  decodeHost 0x03 = .ok .setBacklight
    ∧ (∀ s : State,
      exec .setBacklight s = .next
        (if s.created = false then faulted s 2
          else if s.transport = .null then s
          else
            { s with
              blDuty := Config.cfg.gamma (s.a0.setWidth 8)
              out := s.out ++ [.bl (Config.cfg.gamma (s.a0.setWidth 8))] }))
    ∧ Config.cfg.gamma 0 = 0 ∧ (Config.cfg.gamma 255 = 65534 ∨ Config.cfg.gamma 255 = 65535)

/-- R100, R101, R121: each wire command run alone sends its one frame, and nothing on NULL. The entry is the model's own
(notes/assumptions/3.md). -/
def Obligations.WireCommandsSendOneFrame : Prop :=
  ∀ s : State,
    exec .softwareReset s = .next (framed Config.cfg s 0x01 none)
      ∧ exec .sleepOut s = .next (framed Config.cfg s 0x11 none)
      ∧ exec .normalDisplayOn s = .next (framed Config.cfg s 0x13 none)
      ∧ exec .inversionOn s = .next (framed Config.cfg s 0x21 none)
      ∧ exec .displayOn s = .next (framed Config.cfg s 0x29 none)
      ∧ (∀ a b, exec (.columnAddressSet a b) s = .next (framed Config.cfg s 0x2A (some (be16 a ++ be16 b))))
      ∧ (∀ a b, exec (.rowAddressSet a b) s = .next (framed Config.cfg s 0x2B (some (be16 a ++ be16 b))))
      ∧ exec (.memoryWrite []) s = .next (framed Config.cfg s 0x2C none)
      ∧ (∀ b bytes, exec (.memoryWrite (b :: bytes)) s = .next (framed Config.cfg s 0x2C (some (b :: bytes))))
      ∧ (∀ v, exec (.pixelFormat v) s = .next (framed Config.cfg s 0x3A (some [v])))
      ∧ (∀ v, exec (.memoryAccessControl v) s = .next (framed Config.cfg s 0x36 (some [v])))

/-- D13: with transport NULL no operation but a poll appends anything to OUT. -/
def Obligations.NullTransportSendsNothing : Prop :=
  ∀ (i : Instr) (s t : State), s.created = true → s.transport = .null → i ≠ .keypadPoll → exec i s = .next t →
    t.out = s.out ∧ t.cs = s.cs ∧ t.dc = s.dc ∧ t.rst = s.rst ∧ t.blDuty = s.blDuty

/-! ## Primitive drawing -/

/-- R160: one pixel when it is on the panel, nothing otherwise. -/
def Obligations.DrawPixelDrawsOneCell : Prop :=
  decodeHost 0x07 = .ok .drawPixel ∧ ∀ s : State,
    exec .drawPixel s = .next
      (if s.created = false then faulted s 2
      else if (u16 s.a0).toNat < s.width.toNat ∧ (u16 s.a1).toNat < s.height.toNat then
        drawn Config.cfg s (u16 s.a0) (u16 s.a1) (u16 s.a0) (u16 s.a1) 1 (u16 s.a2)
      else s)

/-- R162: a run of at least one pixel that is wholly on the panel is drawn; any other draws nothing (no clipping, wrapped
ends and length 0 included). -/
def Obligations.HlineDrawsWholeRunOrNothing : Prop :=
  decodeHost 0x08 = .ok .hline ∧ ∀ s : State,
    exec .hline s = .next
      (if s.created = false then faulted s 2
      else if 1 ≤ (u16 s.a2).toNat ∧ (u16 s.a0).toNat + (u16 s.a2).toNat ≤ s.width.toNat
          ∧ (u16 s.a1).toNat < s.height.toNat then
        drawn Config.cfg s (u16 s.a0) (u16 s.a1) (u16 s.a0 + u16 s.a2 - 1) (u16 s.a1) (u16 s.a2).toNat (u16 s.a3)
      else s)

/-- R163: the same down a column. -/
def Obligations.VlineDrawsWholeRunOrNothing : Prop :=
  decodeHost 0x09 = .ok .vline ∧ ∀ s : State,
    exec .vline s = .next
      (if s.created = false then faulted s 2
      else if 1 ≤ (u16 s.a2).toNat ∧ (u16 s.a1).toNat + (u16 s.a2).toNat ≤ s.height.toNat
          ∧ (u16 s.a0).toNat < s.width.toNat then
        drawn Config.cfg s (u16 s.a0) (u16 s.a1) (u16 s.a0) (u16 s.a1 + u16 s.a2 - 1) (u16 s.a2).toNat (u16 s.a3)
      else s)

/-- R164: a rectangle that is not empty and wholly on the panel is one windowed write of w*h pixels; any other draws
nothing. -/
def Obligations.FillRectDrawsWholeOrNothing : Prop :=
  decodeHost 0x0A = .ok .fillRect ∧ ∀ s : State,
    exec .fillRect s = .next
      (if s.created = false then faulted s 2
      else if 1 ≤ (u16 s.a2).toNat ∧ 1 ≤ (u16 s.a3).toNat
          ∧ (u16 s.a0).toNat + (u16 s.a2).toNat ≤ s.width.toNat ∧ (u16 s.a1).toNat + (u16 s.a3).toNat ≤ s.height.toNat then
        drawn Config.cfg s (u16 s.a0) (u16 s.a1) (u16 s.a0 + u16 s.a2 - 1) (u16 s.a1 + u16 s.a3 - 1)
          ((u16 s.a2).toNat * (u16 s.a3).toNat) (u16 s.a4)
      else s)

/-- R161: the frames of a fill's pixels. `count div 128` frames of 256 bytes, one frame of the remainder when there is
one, all bytes together the colour `count` times; the memory-write command stands on the first of them, on PARALLEL only. -/
def Obligations.FillIsChunkedBy128 : Prop :=
  ∀ (c : Cfg) (t : Transport) (color : Half) (count : Nat),
    (framesOf (chunkEvents c t color true (chunkSizes count))).map (·.data.length)
        = List.replicate (count / 128) 256 ++ (if count % 128 = 0 then [] else [2 * (count % 128)])
      ∧ ((framesOf (chunkEvents c t color true (chunkSizes count))).map (·.data)).flatten = rep count (be16 color)
      ∧ (∀ f ∈ (framesOf (chunkEvents c t color true (chunkSizes count))).tail, f.command = none)
      ∧ (∀ f ∈ (framesOf (chunkEvents c t color true (chunkSizes count))).head?,
          f.command = if t = .parallel then some 0x2C else none)

/-- R170, R171: LINE draws its runs in order, each accepted or rejected on its own, and changes nothing else. -/
def Obligations.LineDrawsItsRuns : Prop :=
  decodeHost 0x0B = .ok .line ∧ (∀ s : State, s.created = false → exec .line s = .next (faulted s 2))
    ∧ ∀ s : State, s.created = true → ∃ t, exec .line s = .next t
    ∧ t.out = s.out ++ (if s.transport = .null then []
        else (lineRuns (s16 s.a0) (s16 s.a1) (s16 s.a2) (s16 s.a3)).flatMap
          (runEvents Config.cfg s (lineSteep (s16 s.a0) (s16 s.a1) (s16 s.a2) (s16 s.a3)) (u16 s.a4)))
    ∧ (t.out ≠ s.out → t.cs = false ∧ t.dc = true)
    ∧ (t.out = s.out → t.cs = s.cs ∧ t.dc = s.dc)
    ∧ t = { s with cs := t.cs, dc := t.dc, out := t.out, stageGen := t.stageGen }

/-- R170, R172 (a), (b): the runs' pixels are one for each major position, and the minor coordinate at distance j is
y0 + ystep * ceil((j * dy - dx div 2) / dx). A steep line is its transpose; a line that runs down is the line between the
exchanged endpoints. -/
def Obligations.LineRunsMatchTheClosedForm : Prop :=
  (∀ x0 y0 x1 y1 : Int, lineSteep x0 y0 x1 y1 = false → x0 ≤ x1 →
      (lineRuns x0 y0 x1 y1).flatMap runPixels
        = (List.range ((x1 - x0).toNat + 1)).map fun (j : Nat) =>
            (x0 + (j : Int),
              y0 + (if y0 < y1 then 1 else -1)
                * (((j : Int) * ((y1 - y0).natAbs : Int) - (x1 - x0) / 2 + (x1 - x0) - 1) / (x1 - x0))))
    ∧ (∀ x0 y0 x1 y1 : Int, lineSteep x0 y0 x1 y1 = false → x1 < x0 → lineRuns x0 y0 x1 y1 = lineRuns x1 y1 x0 y0)
    ∧ ∀ x0 y0 x1 y1 : Int, lineSteep x0 y0 x1 y1 = true →
        lineSteep y0 x0 y1 x1 = false ∧ lineRuns x0 y0 x1 y1 = lineRuns y0 x0 y1 x1

/-- R170: the rasterizer emits runs, not pixels. No run is empty, and of two consecutive runs the second starts where the
first ends along the major axis and on another row (column, when steep): equal neighbours are coalesced. -/
def Obligations.LineRunsAreCoalesced : Prop :=
  ∀ x0 y0 x1 y1 : Int,
    (∀ r ∈ lineRuns x0 y0 x1 y1, 1 ≤ r.n)
      ∧ ∀ (k : Nat) (r q : Run), (lineRuns x0 y0 x1 y1)[k]? = some r → (lineRuns x0 y0 x1 y1)[k + 1]? = some q →
          q.y ≠ r.y ∧ q.xs = r.xs + r.n

/-- R172 (c): LINE with its endpoints exchanged emits the same events. -/
def Obligations.LineIsSymmetricInItsEndpoints : Prop :=
  ∀ s : State, ∃ t u, exec .line s = .next t
    ∧ exec .line { s with a0 := s.a2, a1 := s.a3, a2 := s.a0, a3 := s.a1 } = .next u ∧ u.out = t.out

/-- R173: the reference table of the line (0,0) to (4,2). -/
def Obligations.LineReferenceTable : Prop :=
  (lineRuns 0 0 4 2).flatMap runPixels = [(0, 0), (1, 0), (2, 1), (3, 1), (4, 2)]
    ∧ lineRuns 0 0 4 2 = [⟨0, 0, 2⟩, ⟨2, 1, 2⟩, ⟨4, 2, 1⟩]

/-! ## Pixel converter and blit -/

/-- R190, R191: the fields of the natural value, and the swap. -/
def Obligations.Rgb565FieldsAndSwap : Prop :=
  ∀ r g b : Byte,
    (rgb565 r g b).extractLsb' 11 5 = r.extractLsb' 3 5 ∧ (rgb565 r g b).extractLsb' 5 6 = g.extractLsb' 2 6
      ∧ (rgb565 r g b).extractLsb' 0 5 = b.extractLsb' 3 5
      ∧ stored r g b = swap16 (rgb565 r g b) ∧ swap16 (stored r g b) = rgb565 r g b
      ∧ le16 (stored r g b) = be16 (rgb565 r g b)

/-- R192, R200 to R203, R206: FINISH_UPDATE. The checks in their order, each raising its fault; a request that passes
them converts the whole palette, sends the rows that fit the panel, centred, each as one window and one write, toggles the
buffer flag in double mode and changes nothing else. -/
def Obligations.FinishUpdateSendsTheCentredFrame : Prop :=
  decodeHost 0x0C = .ok .finishUpdate ∧ ∀ s : State, exec .finishUpdate s = .next (opFinishUpdate Config.cfg s)
    ∧ ∀ (c : Cfg) (n height : Nat), n = (u16 s.a1).toNat * c.wmul → height = (u16 s.a2).toNat →
        if s.created = false then opFinishUpdate c s = faulted s 2
        else if c.nbuf ≤ s.a0.toNat then opFinishUpdate c s = faulted s 6
        else if c.rowbufPixels < n then opFinishUpdate c s = faulted s 7
        else if 2 * c.fbCells < n * height then opFinishUpdate c s = faulted s 6
        else
          ∃ t, opFinishUpdate c s = t
            ∧ (∀ i, i < 256 → lutCell t i = swap16 (naturalEntry s i))
            ∧ t.out = s.out ++ (if s.transport = .null then []
                else (List.range height).flatMap (rowEvents c s s.a0.toNat n height))
            ∧ (t.out ≠ s.out → t.cs = false ∧ t.dc = true)
            ∧ (t.out = s.out → t.cs = s.cs ∧ t.dc = s.dc)
            ∧ t.fbSel = (if c.buffering = .double then !s.fbSel else s.fbSel)
            ∧ t = { s with lut := t.lut, cs := t.cs, dc := t.dc, out := t.out, rowbufGen := t.rowbufGen, fbSel := t.fbSel }

/-- R205: a 1 by 1 frame on a 240 by 240 panel with origin (0,0): one window, columns and rows 119 to 119, and the one
pixel that index byte 0 names, on either transport. -/
def Obligations.OneByOneFrameIsCentred : Prop :=
  ∀ (c : Cfg) (s : State), c.widthMultiplier = .one → s.created = true → s.transport ≠ .null →
    s.width = 240 → s.height = 240 → s.xstart = 0 → s.ystart = 0 → s.a0 = 0 → s.a1 = 1 → s.a2 = 1 →
    ∃ events, (opFinishUpdate c s).out = s.out ++ events
      ∧ framesOf events
          = [⟨some 0x2A, [0x00, 0x77, 0x00, 0x77]⟩, ⟨some 0x2B, [0x00, 0x77, 0x00, 0x77]⟩]
            ++ (if s.transport = .serial then
                [⟨some 0x2C, []⟩, ⟨none, be16 (naturalEntry s (lo8 (fbCell s 0 0)).toNat)⟩]
              else [⟨some 0x2C, be16 (naturalEntry s (lo8 (fbCell s 0 0)).toNat)⟩])

/-- R207, R208: the buffer requests. -/
def Obligations.BufferRequestsAnswer : Prop :=
  decodeHost 0x0E = .ok .getBackBuffer ∧ decodeHost 0x0F = .ok .getFrontBuffer ∧ ∀ s : State,
    exec .getBackBuffer s = .next
        { s with r0 := if Config.cfg.buffering = .double then (if s.fbSel then 1 else 0) else 0 }
      ∧ exec .getFrontBuffer s = .next
        { s with r0 := if Config.cfg.buffering = .double then (if s.fbSel then 0 else 1) else 0 }

/-- R206, R201: FB_SEL changes in double mode at the end of a FINISH_UPDATE that takes no fault, and never otherwise. -/
def Obligations.BufferFlagTogglesOncePerFrame : Prop :=
  ∀ (i : Instr) (s t : State), exec i s = .next t →
    (i ≠ .finishUpdate ∨ Config.cfg.buffering = .single → t.fbSel = s.fbSel)
      ∧ (i = .finishUpdate → s.created = true → s.fault = false → t.fault = false →
          t.fbSel = if Config.cfg.buffering = .double then !s.fbSel else s.fbSel)
      ∧ (i = .finishUpdate → s.fault = false → t.fault = true → t.fbSel = s.fbSel)

/-! ## Keypad -/

/-- R220 to R223: a poll appends its events in order, SCAN becomes what was sampled, STROBE rests, KP_INIT is set. -/
def Obligations.KeypadPollScansBothPhases : Prop :=
  decodeHost 0x0D = .ok .keypadPoll ∧ ∀ s : State,
    exec .keypadPoll s = .next
      { s with kpInit := true, scan := s.levels, strobe := 0b00, out := s.out ++ pollEvents Config.cfg s }

/-- R228 (b): the strobe and settle events of a poll do not depend on the inputs. -/
def Obligations.PollStrobesAreFixed : Prop :=
  ∀ s : State, ∃ t events, exec .keypadPoll s = .next t ∧ t.out = s.out ++ events
    ∧ kpWireOf events = (if s.kpInit then [] else [.kpcfg])
        ++ [.strobe 0b01, .delayUs Config.cfg.tStrobeUs, .strobe 0b10, .delayUs Config.cfg.tStrobeUs, .strobe 0b00]

/-- R228 (d): no other operation touches SCAN, STROBE or KP_INIT, and a poll touches nothing of the display. -/
def Obligations.DisplayAndKeypadAreSeparate : Prop :=
  ∀ (i : Instr) (s t : State), exec i s = .next t →
    (i ≠ .keypadPoll → t.scan = s.scan ∧ t.strobe = s.strobe ∧ t.kpInit = s.kpInit ∧ evqOf t.out = evqOf s.out)
      ∧ (i = .keypadPoll →
          t = { s with scan := t.scan, strobe := t.strobe, kpInit := t.kpInit, out := t.out }
            ∧ wireOf t.out = wireOf s.out ∧ diagsOf t.out = diagsOf s.out)

/-- R228 (d): an operation and a poll commute except for the order of their events in OUT, and no projection of OUT tells
the order. -/
def Obligations.OperationsCommuteWithPolls : Prop :=
  ∀ (i : Instr) (s t u t' u' : State), i ≠ .keypadPoll → exec i s = .next t → exec .keypadPoll t = .next u →
    exec .keypadPoll s = .next t' → exec i t' = .next u' →
    u = { u' with out := u.out } ∧ wireOf u.out = wireOf u'.out ∧ kpWireOf u.out = kpWireOf u'.out
      ∧ evqOf u.out = evqOf u'.out ∧ diagsOf u.out = diagsOf u'.out

/-! ## Reset and the invariant -/

/-- R45: the state after reset; the memories list no cell, so each holds its unspecified content. -/
def Obligations.ResetLeavesTheTableOfR45 : Prop :=
  (∀ n, 3 ≤ n → n ≤ 7 → readReg State.reset n = some 0) ∧ State.reset.r0 = 0
    ∧ State.reset.created = false ∧ State.reset.transport = .null ∧ State.reset.width = 0 ∧ State.reset.height = 0
    ∧ State.reset.xstart = 0 ∧ State.reset.ystart = 0 ∧ State.reset.blDuty = 0
    ∧ State.reset.fault = false ∧ State.reset.faultcode = 0 ∧ State.reset.diag = false
    ∧ State.reset.kpInit = false ∧ State.reset.fbSel = false
    ∧ State.reset.cs = false ∧ State.reset.dc = false ∧ State.reset.rst = false ∧ State.reset.strobe = 0b00
    ∧ (∀ (p : Fin 2) (i : Fin 5), State.reset.scan[p][i] = false)
    ∧ State.reset.out = []
    ∧ (∀ i, palCell State.reset i = Config.palPowerOn 0 i ∧ lutCell State.reset i = Config.lutPowerOn 0 i
        ∧ xbufCell State.reset i = Config.xbufPowerOn 0 i
        ∧ fbCell State.reset 0 i = Config.fbPowerOn 0 0 i ∧ fbCell State.reset 1 i = Config.fbPowerOn 0 1 i)

/-- R270: reset is total from any state, the faulted one included, and clears no memory to a known value. What stands
outside the block stays (the model's choice, notes/assumptions/17.md). -/
def Obligations.ResetIsTotal : Prop :=
  ∀ (s : State) (rest : List HostAction), s.pending = .reset :: rest →
    ∃ t, step s = .next t
      ∧ t = { State.reset with
              epoch := s.epoch + 1, rowbufGen := t.rowbufGen, stageGen := t.stageGen, levels := s.levels,
              pending := rest, answers := s.answers }
      ∧ ∀ i, palCell t i = Config.palPowerOn (s.epoch + 1) i ∧ lutCell t i = Config.lutPowerOn (s.epoch + 1) i

/-- The invariant of Safety.lean holds after reset. -/
def Obligations.InvariantHoldsAtReset : Prop := Inv State.reset

/-- Every step keeps the invariant: canonical memories, the model's own listing (notes/assumptions/8.md); status fields
that agree (R240); pins at rest (R121, R228); in single mode no second buffer and no buffer flag (R206); an untouched
descriptor before PANEL_CREATE (R25) and an untouched scan state before the first poll (R223). -/
def Obligations.EveryStepKeepsTheInvariant : Prop :=
  ∀ s t : State, Inv s → step s = .next t → Inv t

/-! ## The panel

The observer is the model's reading of R75 and R76 (notes/assumptions/18.md), and what it makes of pixels without a landing
rule is the model's choice (notes/assumptions/19.md). -/

/-- R281, R75: every pixel write the block generates itself follows a window address pair of its own. In the observer's
reading (notes/assumptions/18.md) the operation's events are window writes and INIT's own commands, and nothing else. -/
def Obligations.GeneratedPixelWritesAreWindowed : Prop :=
  ∀ (i : Instr) (s : State), i ∈ generatesPixels → ∃ t events, exec i s = .next t ∧ t.out = s.out ++ events
    ∧ ∀ note ∈ operationNotes Config.cfg i events, ∃ w bytes, note = .write w bytes

/-- R76 (c), R164: an accepted FILL_RECT paints exactly its rectangle, offset by the origin, and leaves what is known of
every other cell, in the observer's reading (notes/assumptions/18.md). Panels whose offset extent leaves the 16-bit range
are left out: there a window may wrap (notes/assumptions/19.md). -/
def Obligations.FillRectPaintsItsRectangle : Prop :=
  ∀ s : State, s.created = true → s.transport ≠ .null →
    1 ≤ (u16 s.a2).toNat → 1 ≤ (u16 s.a3).toNat →
    (u16 s.a0).toNat + (u16 s.a2).toNat ≤ s.width.toNat → (u16 s.a1).toNat + (u16 s.a3).toNat ≤ s.height.toNat →
    s.xstart.toNat + s.width.toNat ≤ 65536 → s.ystart.toNat + s.height.toNat ≤ 65536 →
    ∃ t events, exec .fillRect s = .next t ∧ t.out = s.out ++ events
      ∧ ∀ (x y : Nat) (v : CellView), v.lost = false →
          seeOperation Config.cfg .fillRect events x y v =
            if s.xstart.toNat + (u16 s.a0).toNat ≤ x ∧ x < s.xstart.toNat + (u16 s.a0).toNat + (u16 s.a2).toNat
                ∧ s.ystart.toNat + (u16 s.a1).toNat ≤ y
                ∧ y < s.ystart.toNat + (u16 s.a1).toNat + (u16 s.a3).toNat then
              ⟨some (u16 s.a4), false⟩
            else v

/-- R204: after a FINISH_UPDATE of a frame that is not wider than the panel, the panel holds exactly the rows written,
each pixel the RGB565 value of its index byte's palette entry, and every other cell as before, in the observer's reading
(notes/assumptions/18.md). Panels whose offset extent leaves the 16-bit range are left out: there a row's window may wrap
(notes/assumptions/19.md). -/
def Obligations.FinishUpdatePaintsTheFrame : Prop :=
  ∀ (c : Cfg) (s : State) (n height : Nat), s.created = true → s.transport ≠ .null →
    n = (u16 s.a1).toNat * c.wmul → height = (u16 s.a2).toNat →
    s.a0.toNat < c.nbuf → n ≤ c.rowbufPixels → n * height ≤ 2 * c.fbCells →
    1 ≤ n → n ≤ s.width.toNat →
    s.xstart.toNat + s.width.toNat ≤ 65536 → s.ystart.toNat + s.height.toNat ≤ 65536 →
    ∃ events, (opFinishUpdate c s).out = s.out ++ events
      ∧ ∀ (x y : Nat) (v : CellView), v.lost = false →
          let x0 := s.xstart.toNat + frameOffset s.width.toNat n
          let y0 := s.ystart.toNat + frameOffset s.height.toNat height
          seeOperation c .finishUpdate events x y v =
            if x0 ≤ x ∧ x < x0 + n ∧ y0 ≤ y ∧ y < y0 + height ∧ y < s.ystart.toNat + s.height.toNat then
              ⟨some (naturalEntry s (frameIndex s s.a0.toNat ((y - y0) * n + (x - x0))).toNat), false⟩
            else v

/-- R75, R77, U12, U20: addressing alone moves no pixel; the bytes of a WRITE belong to no window write of their own
operation, and a window whose end wraps when the origin is added has no landing rule, so after either every cell is any
value. For the wrapped window that is the model's choice (notes/assumptions/19.md). -/
def Obligations.PixelsWithoutALandingRuleLeaveNothingKnown : Prop :=
  ∀ s : State, s.created = true → s.transport ≠ .null →
    (∃ t events, exec .setWindow s = .next t ∧ t.out = s.out ++ events
        ∧ ∀ x y v, seeOperation Config.cfg .setWindow events x y v = v)
      ∧ (1 ≤ s.a0.toNat → s.a0.toNat ≤ Config.cfg.xbufBytes → ∃ t events, exec .write s = .next t
        ∧ t.out = s.out ++ events ∧ ∀ x y v, seeOperation Config.cfg .write events x y v = ⟨none, v.lost⟩)
      ∧ (1 ≤ (u16 s.a2).toNat → (u16 s.a0).toNat + (u16 s.a2).toNat ≤ s.width.toNat → (u16 s.a1).toNat < s.height.toNat →
        s.xstart.toNat + (u16 s.a0).toNat < 65536 → 65536 < s.xstart.toNat + (u16 s.a0).toNat + (u16 s.a2).toNat →
        ∃ t events, exec .hline s = .next t ∧ t.out = s.out ++ events
          ∧ ∀ x y v, v.lost = false → seeOperation Config.cfg .hline events x y v = ⟨none, false⟩)
end

