-- ==== Sys2Proof/Laws/Bytes.lean ====
section
/-! SUPPORT. Byte order: the pairs and the swap undo one another (spec/00_scope.md R7). -/

namespace Sys2Proof

theorem toNat_hi8 (v : Half) : (hi8 v).toNat = v.toNat / 256 := by
  have := v.isLt
  simp only [hi8, BitVec.extractLsb'_toNat, Nat.shiftRight_eq_div_pow]
  omega

theorem toNat_lo8 (v : Half) : (lo8 v).toNat = v.toNat % 256 := by
  simp [lo8, BitVec.extractLsb'_toNat]

theorem toNat_ofBytes (h l : Byte) : (ofBytes h l).toNat = h.toNat * 256 + l.toNat := by
  have := l.isLt
  simp only [ofBytes, BitVec.toNat_append]
  rw [← Nat.shiftLeft_add_eq_or_of_lt (by omega), Nat.shiftLeft_eq]

theorem hi8_ofBytes (h l : Byte) : hi8 (ofBytes h l) = h := by
  have := l.isLt
  apply BitVec.eq_of_toNat_eq
  rw [toNat_hi8, toNat_ofBytes]
  omega

theorem lo8_ofBytes (h l : Byte) : lo8 (ofBytes h l) = l := by
  have := l.isLt
  apply BitVec.eq_of_toNat_eq
  rw [toNat_lo8, toNat_ofBytes]
  omega

theorem ofBytes_hi8_lo8 (v : Half) : ofBytes (hi8 v) (lo8 v) = v := by
  apply BitVec.eq_of_toNat_eq
  rw [toNat_ofBytes, toNat_hi8, toNat_lo8]
  omega

theorem be16_ofBytes (h l : Byte) : be16 (ofBytes h l) = [h, l] := by
  simp only [be16, hi8_ofBytes, lo8_ofBytes]

/-- What leaves a cell low byte first is the natural value high byte first (spec/20_memory.md R66). -/
theorem le16_swap16 (v : Half) : le16 (swap16 v) = be16 v := by
  simp only [le16, swap16, be16, hi8_ofBytes, lo8_ofBytes]

/-- `swap16` is its own inverse (spec/43_pixel_converter.md R191). -/
theorem swap16_swap16 (v : Half) : swap16 (swap16 v) = v := by
  simp only [swap16, hi8_ofBytes, lo8_ofBytes, ofBytes_hi8_lo8]

theorem length_rep (n : Nat) (l : List Byte) : (rep n l).length = n * l.length := by
  simp [rep]

theorem rep_add (m n : Nat) (l : List Byte) : rep (m + n) l = rep m l ++ rep n l := by
  simp only [rep, ← List.replicate_append_replicate, List.flatten_append]

end Sys2Proof
end

