-- ==== Sys2Proof/Laws/Mem.lean ====
section
/-! SUPPORT. Memory: a read after a write, and the canonical form kept (notes/assumptions/8.md). -/

namespace Sys2Proof.Machine

theorem Mem.get?_set {w : Nat} (m : Mem w) (i j : Nat) (v : BitVec w) :
    Mem.get? (Mem.set m i v) j = if j = i then some v else Mem.get? m j := by
  induction m with
  | nil =>
    simp only [Mem.set, Mem.get?]
    split <;> simp
  | cons e rest ih =>
    obtain ⟨k, u⟩ := e
    simp only [Mem.set]
    by_cases hik : i = k
    · subst hik
      simp only [if_true, Mem.get?]
      split <;> rfl
    · rw [if_neg hik]
      by_cases hlt : i < k
      · rw [if_pos hlt]
        simp only [Mem.get?]
        by_cases hji : j = i
        · simp [hji]
        · simp only [if_neg hji]
          by_cases hjlt : j < i
          · have h1 : ¬ j = k := by omega
            have h2 : j < k := by omega
            simp [hjlt, h1, h2]
          · simp [hjlt]
      · rw [if_neg hlt]
        simp only [Mem.get?, ih]
        by_cases hjk : j = k
        · have : ¬ j = i := by omega
          simp [hjk, Ne.symm hik]
        · by_cases hjlt : j < k
          · have : ¬ j = i := by omega
            simp [hjk, hjlt, this]
          · simp [hjk, hjlt]

/-- Every listed index is at or above the first one's, below the size. -/
theorem Mem.wf_cons {w size : Nat} (i : Nat) (v : BitVec w) (m : Mem w) :
    Mem.wf size ((i, v) :: m) = true ↔
      i < size ∧ Mem.wf size m = true ∧ (∀ e ∈ m.head?, i < e.1) := by
  induction m generalizing i v with
  | nil => simp [Mem.wf]
  | cons e rest ih =>
    obtain ⟨j, u⟩ := e
    have := ih j u
    simp only [Mem.wf, Bool.and_eq_true, decide_eq_true_eq, List.head?_cons, Option.mem_def, Option.some.injEq]
    constructor
    · rintro ⟨h1, h2⟩
      have := (this.1 h2).1
      exact ⟨by omega, h2, by rintro e rfl; exact h1⟩
    · rintro ⟨_, h2, h3⟩
      exact ⟨h3 _ rfl, h2⟩

theorem Mem.head?_set {w : Nat} (m : Mem w) (i : Nat) (v : BitVec w) :
    ∀ e ∈ (Mem.set m i v).head?, e.1 = i ∨ ∃ e' ∈ m.head?, e.1 = e'.1 := by
  cases m with
  | nil => simp [Mem.set]
  | cons e rest =>
    obtain ⟨j, u⟩ := e
    simp only [Mem.set]
    split
    · simp
    · split <;> simp

/-- A write keeps the canonical form. -/
theorem Mem.wf_set {w size : Nat} (m : Mem w) (i : Nat) (v : BitVec w) (hi : i < size) (hm : Mem.wf size m = true) :
    Mem.wf size (Mem.set m i v) = true := by
  induction m with
  | nil => simp [Mem.set, Mem.wf, hi]
  | cons e rest ih =>
    obtain ⟨j, u⟩ := e
    obtain ⟨hj, hrest, hhead⟩ := (Mem.wf_cons j u rest).1 hm
    simp only [Mem.set]
    split
    · next h => subst h; exact (Mem.wf_cons i v rest).2 ⟨hi, hrest, hhead⟩
    · split
      · next h => exact (Mem.wf_cons _ _ _).2 ⟨hi, hm, by simpa using h⟩
      · next h1 h2 =>
        refine (Mem.wf_cons _ _ _).2 ⟨hj, ih hrest, fun e he => ?_⟩
        rcases Mem.head?_set rest i v e he with h | ⟨e', he', h⟩
        · omega
        · have := hhead e' he'
          omega

/-- No index below the first listed one is listed. -/
theorem Mem.get?_below {w size : Nat} (m : Mem w) (i : Nat) (hm : Mem.wf size m = true) (h : ∀ e ∈ m.head?, i < e.1) :
    Mem.get? m i = none := by
  cases m with
  | nil => rfl
  | cons e rest =>
    obtain ⟨j, u⟩ := e
    have := h (j, u) (by simp)
    simp only at this
    simp [Mem.get?, this, Nat.ne_of_lt this]

/-- Equal memories are equal data. -/
theorem Mem.ext {w size : Nat} (m n : Mem w) (hm : Mem.wf size m = true) (hn : Mem.wf size n = true)
    (h : ∀ i, Mem.get? m i = Mem.get? n i) : m = n := by
  induction m generalizing n with
  | nil =>
    cases n with
    | nil => rfl
    | cons e rest => simpa [Mem.get?] using h e.1
  | cons e rest ih =>
    obtain ⟨i, v⟩ := e
    obtain ⟨_, hrest, hhead⟩ := (Mem.wf_cons i v rest).1 hm
    cases n with
    | nil => simpa [Mem.get?] using h i
    | cons f more =>
      obtain ⟨j, u⟩ := f
      obtain ⟨_, hmore, hhead'⟩ := (Mem.wf_cons j u more).1 hn
      have hij : i = j := by
        have h1 := h i
        have h2 := h j
        simp only [Mem.get?, if_true] at h1 h2
        by_contra hne
        rcases Nat.lt_or_gt_of_ne hne with hlt | hlt
        · simp [hne, hlt] at h1
        · simp [Ne.symm hne, hlt] at h2
      subst hij
      have hv : v = u := by simpa [Mem.get?] using h i
      subst hv
      rw [ih more hrest hmore fun k => ?_]
      by_cases hki : k ≤ i
      · rw [Mem.get?_below rest k hrest fun e he => Nat.lt_of_le_of_lt hki (hhead e he),
          Mem.get?_below more k hmore fun e he => Nat.lt_of_le_of_lt hki (hhead' e he)]
      · have := h k
        have h1 : ¬ k = i := by omega
        have h2 : ¬ k < i := by omega
        simpa [Mem.get?, h1, h2] using this

/-- A full listing of the first `n` cells from `k` on. -/
theorem Mem.get?_listing {w : Nat} (f : Nat → BitVec w) (n k i : Nat) :
    Mem.get? ((List.range' k n).map fun j => (j, f j)) i = if k ≤ i ∧ i < k + n then some (f i) else none := by
  induction n generalizing k with
  | zero => simp [Mem.get?]
  | succ n ih =>
    rw [List.range'_succ, List.map_cons]
    simp only [Mem.get?, ih]
    by_cases h1 : i = k
    · simp [h1]
    · by_cases h2 : i < k
      · have : ¬ k ≤ i := by omega
        simp [h1, h2, this]
      · simp only [h1, h2, if_false]
        congr 1
        apply propext
        omega

theorem Mem.wf_listing {w : Nat} (f : Nat → BitVec w) (n k size : Nat) (h : k + n ≤ size) :
    Mem.wf size ((List.range' k n).map fun j => (j, f j)) = true := by
  induction n generalizing k with
  | zero => simp [Mem.wf]
  | succ n ih =>
    rw [List.range'_succ, List.map_cons, Mem.wf_cons]
    refine ⟨by omega, ih (k + 1) (by omega), ?_⟩
    cases n <;> simp [List.range'_succ]

end Sys2Proof.Machine
end

