-- ==== Sys2Proof/Laws/State.lean ====
section
/-! SUPPORT. What each primitive update of the state does to each field, so that no later proof unfolds a record update. -/

namespace Sys2Proof.Machine

/-! ### emit -/

@[simp] theorem emit_a0 (e : Event) (s : State) : (emit e s).a0 = s.a0 := rfl
@[simp] theorem emit_a1 (e : Event) (s : State) : (emit e s).a1 = s.a1 := rfl
@[simp] theorem emit_a2 (e : Event) (s : State) : (emit e s).a2 = s.a2 := rfl
@[simp] theorem emit_a3 (e : Event) (s : State) : (emit e s).a3 = s.a3 := rfl
@[simp] theorem emit_a4 (e : Event) (s : State) : (emit e s).a4 = s.a4 := rfl
@[simp] theorem emit_r0 (e : Event) (s : State) : (emit e s).r0 = s.r0 := rfl
@[simp] theorem emit_created (e : Event) (s : State) : (emit e s).created = s.created := rfl
@[simp] theorem emit_transport (e : Event) (s : State) : (emit e s).transport = s.transport := rfl
@[simp] theorem emit_width (e : Event) (s : State) : (emit e s).width = s.width := rfl
@[simp] theorem emit_height (e : Event) (s : State) : (emit e s).height = s.height := rfl
@[simp] theorem emit_xstart (e : Event) (s : State) : (emit e s).xstart = s.xstart := rfl
@[simp] theorem emit_ystart (e : Event) (s : State) : (emit e s).ystart = s.ystart := rfl
@[simp] theorem emit_blDuty (e : Event) (s : State) : (emit e s).blDuty = s.blDuty := rfl
@[simp] theorem emit_fault (e : Event) (s : State) : (emit e s).fault = s.fault := rfl
@[simp] theorem emit_faultcode (e : Event) (s : State) : (emit e s).faultcode = s.faultcode := rfl
@[simp] theorem emit_diag (e : Event) (s : State) : (emit e s).diag = s.diag := rfl
@[simp] theorem emit_kpInit (e : Event) (s : State) : (emit e s).kpInit = s.kpInit := rfl
@[simp] theorem emit_fbSel (e : Event) (s : State) : (emit e s).fbSel = s.fbSel := rfl
@[simp] theorem emit_cs (e : Event) (s : State) : (emit e s).cs = s.cs := rfl
@[simp] theorem emit_dc (e : Event) (s : State) : (emit e s).dc = s.dc := rfl
@[simp] theorem emit_rst (e : Event) (s : State) : (emit e s).rst = s.rst := rfl
@[simp] theorem emit_strobe (e : Event) (s : State) : (emit e s).strobe = s.strobe := rfl
@[simp] theorem emit_pal (e : Event) (s : State) : (emit e s).pal = s.pal := rfl
@[simp] theorem emit_lut (e : Event) (s : State) : (emit e s).lut = s.lut := rfl
@[simp] theorem emit_fb0 (e : Event) (s : State) : (emit e s).fb0 = s.fb0 := rfl
@[simp] theorem emit_fb1 (e : Event) (s : State) : (emit e s).fb1 = s.fb1 := rfl
@[simp] theorem emit_xbuf (e : Event) (s : State) : (emit e s).xbuf = s.xbuf := rfl
@[simp] theorem emit_rowbufGen (e : Event) (s : State) : (emit e s).rowbufGen = s.rowbufGen := rfl
@[simp] theorem emit_stageGen (e : Event) (s : State) : (emit e s).stageGen = s.stageGen := rfl
@[simp] theorem emit_scan (e : Event) (s : State) : (emit e s).scan = s.scan := rfl
@[simp] theorem emit_out (e : Event) (s : State) : (emit e s).out = s.out ++ [e] := rfl
@[simp] theorem emit_epoch (e : Event) (s : State) : (emit e s).epoch = s.epoch := rfl
@[simp] theorem emit_levels (e : Event) (s : State) : (emit e s).levels = s.levels := rfl
@[simp] theorem emit_pending (e : Event) (s : State) : (emit e s).pending = s.pending := rfl
@[simp] theorem emit_answers (e : Event) (s : State) : (emit e s).answers = s.answers := rfl

/-! ### driveCs -/

@[simp] theorem driveCs_a0 (v : Bool) (s : State) : (driveCs v s).a0 = s.a0 := rfl
@[simp] theorem driveCs_a1 (v : Bool) (s : State) : (driveCs v s).a1 = s.a1 := rfl
@[simp] theorem driveCs_a2 (v : Bool) (s : State) : (driveCs v s).a2 = s.a2 := rfl
@[simp] theorem driveCs_a3 (v : Bool) (s : State) : (driveCs v s).a3 = s.a3 := rfl
@[simp] theorem driveCs_a4 (v : Bool) (s : State) : (driveCs v s).a4 = s.a4 := rfl
@[simp] theorem driveCs_r0 (v : Bool) (s : State) : (driveCs v s).r0 = s.r0 := rfl
@[simp] theorem driveCs_created (v : Bool) (s : State) : (driveCs v s).created = s.created := rfl
@[simp] theorem driveCs_transport (v : Bool) (s : State) : (driveCs v s).transport = s.transport := rfl
@[simp] theorem driveCs_width (v : Bool) (s : State) : (driveCs v s).width = s.width := rfl
@[simp] theorem driveCs_height (v : Bool) (s : State) : (driveCs v s).height = s.height := rfl
@[simp] theorem driveCs_xstart (v : Bool) (s : State) : (driveCs v s).xstart = s.xstart := rfl
@[simp] theorem driveCs_ystart (v : Bool) (s : State) : (driveCs v s).ystart = s.ystart := rfl
@[simp] theorem driveCs_blDuty (v : Bool) (s : State) : (driveCs v s).blDuty = s.blDuty := rfl
@[simp] theorem driveCs_fault (v : Bool) (s : State) : (driveCs v s).fault = s.fault := rfl
@[simp] theorem driveCs_faultcode (v : Bool) (s : State) : (driveCs v s).faultcode = s.faultcode := rfl
@[simp] theorem driveCs_diag (v : Bool) (s : State) : (driveCs v s).diag = s.diag := rfl
@[simp] theorem driveCs_kpInit (v : Bool) (s : State) : (driveCs v s).kpInit = s.kpInit := rfl
@[simp] theorem driveCs_fbSel (v : Bool) (s : State) : (driveCs v s).fbSel = s.fbSel := rfl
@[simp] theorem driveCs_cs (v : Bool) (s : State) : (driveCs v s).cs = v := rfl
@[simp] theorem driveCs_dc (v : Bool) (s : State) : (driveCs v s).dc = s.dc := rfl
@[simp] theorem driveCs_rst (v : Bool) (s : State) : (driveCs v s).rst = s.rst := rfl
@[simp] theorem driveCs_strobe (v : Bool) (s : State) : (driveCs v s).strobe = s.strobe := rfl
@[simp] theorem driveCs_pal (v : Bool) (s : State) : (driveCs v s).pal = s.pal := rfl
@[simp] theorem driveCs_lut (v : Bool) (s : State) : (driveCs v s).lut = s.lut := rfl
@[simp] theorem driveCs_fb0 (v : Bool) (s : State) : (driveCs v s).fb0 = s.fb0 := rfl
@[simp] theorem driveCs_fb1 (v : Bool) (s : State) : (driveCs v s).fb1 = s.fb1 := rfl
@[simp] theorem driveCs_xbuf (v : Bool) (s : State) : (driveCs v s).xbuf = s.xbuf := rfl
@[simp] theorem driveCs_rowbufGen (v : Bool) (s : State) : (driveCs v s).rowbufGen = s.rowbufGen := rfl
@[simp] theorem driveCs_stageGen (v : Bool) (s : State) : (driveCs v s).stageGen = s.stageGen := rfl
@[simp] theorem driveCs_scan (v : Bool) (s : State) : (driveCs v s).scan = s.scan := rfl
@[simp] theorem driveCs_out (v : Bool) (s : State) : (driveCs v s).out = s.out ++ [.cs v] := rfl
@[simp] theorem driveCs_epoch (v : Bool) (s : State) : (driveCs v s).epoch = s.epoch := rfl
@[simp] theorem driveCs_levels (v : Bool) (s : State) : (driveCs v s).levels = s.levels := rfl
@[simp] theorem driveCs_pending (v : Bool) (s : State) : (driveCs v s).pending = s.pending := rfl
@[simp] theorem driveCs_answers (v : Bool) (s : State) : (driveCs v s).answers = s.answers := rfl

/-! ### driveDc -/

@[simp] theorem driveDc_a0 (v : Bool) (s : State) : (driveDc v s).a0 = s.a0 := rfl
@[simp] theorem driveDc_a1 (v : Bool) (s : State) : (driveDc v s).a1 = s.a1 := rfl
@[simp] theorem driveDc_a2 (v : Bool) (s : State) : (driveDc v s).a2 = s.a2 := rfl
@[simp] theorem driveDc_a3 (v : Bool) (s : State) : (driveDc v s).a3 = s.a3 := rfl
@[simp] theorem driveDc_a4 (v : Bool) (s : State) : (driveDc v s).a4 = s.a4 := rfl
@[simp] theorem driveDc_r0 (v : Bool) (s : State) : (driveDc v s).r0 = s.r0 := rfl
@[simp] theorem driveDc_created (v : Bool) (s : State) : (driveDc v s).created = s.created := rfl
@[simp] theorem driveDc_transport (v : Bool) (s : State) : (driveDc v s).transport = s.transport := rfl
@[simp] theorem driveDc_width (v : Bool) (s : State) : (driveDc v s).width = s.width := rfl
@[simp] theorem driveDc_height (v : Bool) (s : State) : (driveDc v s).height = s.height := rfl
@[simp] theorem driveDc_xstart (v : Bool) (s : State) : (driveDc v s).xstart = s.xstart := rfl
@[simp] theorem driveDc_ystart (v : Bool) (s : State) : (driveDc v s).ystart = s.ystart := rfl
@[simp] theorem driveDc_blDuty (v : Bool) (s : State) : (driveDc v s).blDuty = s.blDuty := rfl
@[simp] theorem driveDc_fault (v : Bool) (s : State) : (driveDc v s).fault = s.fault := rfl
@[simp] theorem driveDc_faultcode (v : Bool) (s : State) : (driveDc v s).faultcode = s.faultcode := rfl
@[simp] theorem driveDc_diag (v : Bool) (s : State) : (driveDc v s).diag = s.diag := rfl
@[simp] theorem driveDc_kpInit (v : Bool) (s : State) : (driveDc v s).kpInit = s.kpInit := rfl
@[simp] theorem driveDc_fbSel (v : Bool) (s : State) : (driveDc v s).fbSel = s.fbSel := rfl
@[simp] theorem driveDc_cs (v : Bool) (s : State) : (driveDc v s).cs = s.cs := rfl
@[simp] theorem driveDc_dc (v : Bool) (s : State) : (driveDc v s).dc = v := rfl
@[simp] theorem driveDc_rst (v : Bool) (s : State) : (driveDc v s).rst = s.rst := rfl
@[simp] theorem driveDc_strobe (v : Bool) (s : State) : (driveDc v s).strobe = s.strobe := rfl
@[simp] theorem driveDc_pal (v : Bool) (s : State) : (driveDc v s).pal = s.pal := rfl
@[simp] theorem driveDc_lut (v : Bool) (s : State) : (driveDc v s).lut = s.lut := rfl
@[simp] theorem driveDc_fb0 (v : Bool) (s : State) : (driveDc v s).fb0 = s.fb0 := rfl
@[simp] theorem driveDc_fb1 (v : Bool) (s : State) : (driveDc v s).fb1 = s.fb1 := rfl
@[simp] theorem driveDc_xbuf (v : Bool) (s : State) : (driveDc v s).xbuf = s.xbuf := rfl
@[simp] theorem driveDc_rowbufGen (v : Bool) (s : State) : (driveDc v s).rowbufGen = s.rowbufGen := rfl
@[simp] theorem driveDc_stageGen (v : Bool) (s : State) : (driveDc v s).stageGen = s.stageGen := rfl
@[simp] theorem driveDc_scan (v : Bool) (s : State) : (driveDc v s).scan = s.scan := rfl
@[simp] theorem driveDc_out (v : Bool) (s : State) : (driveDc v s).out = s.out ++ [.dc v] := rfl
@[simp] theorem driveDc_epoch (v : Bool) (s : State) : (driveDc v s).epoch = s.epoch := rfl
@[simp] theorem driveDc_levels (v : Bool) (s : State) : (driveDc v s).levels = s.levels := rfl
@[simp] theorem driveDc_pending (v : Bool) (s : State) : (driveDc v s).pending = s.pending := rfl
@[simp] theorem driveDc_answers (v : Bool) (s : State) : (driveDc v s).answers = s.answers := rfl

/-! ### driveRst -/

@[simp] theorem driveRst_a0 (v : Bool) (s : State) : (driveRst v s).a0 = s.a0 := rfl
@[simp] theorem driveRst_a1 (v : Bool) (s : State) : (driveRst v s).a1 = s.a1 := rfl
@[simp] theorem driveRst_a2 (v : Bool) (s : State) : (driveRst v s).a2 = s.a2 := rfl
@[simp] theorem driveRst_a3 (v : Bool) (s : State) : (driveRst v s).a3 = s.a3 := rfl
@[simp] theorem driveRst_a4 (v : Bool) (s : State) : (driveRst v s).a4 = s.a4 := rfl
@[simp] theorem driveRst_r0 (v : Bool) (s : State) : (driveRst v s).r0 = s.r0 := rfl
@[simp] theorem driveRst_created (v : Bool) (s : State) : (driveRst v s).created = s.created := rfl
@[simp] theorem driveRst_transport (v : Bool) (s : State) : (driveRst v s).transport = s.transport := rfl
@[simp] theorem driveRst_width (v : Bool) (s : State) : (driveRst v s).width = s.width := rfl
@[simp] theorem driveRst_height (v : Bool) (s : State) : (driveRst v s).height = s.height := rfl
@[simp] theorem driveRst_xstart (v : Bool) (s : State) : (driveRst v s).xstart = s.xstart := rfl
@[simp] theorem driveRst_ystart (v : Bool) (s : State) : (driveRst v s).ystart = s.ystart := rfl
@[simp] theorem driveRst_blDuty (v : Bool) (s : State) : (driveRst v s).blDuty = s.blDuty := rfl
@[simp] theorem driveRst_fault (v : Bool) (s : State) : (driveRst v s).fault = s.fault := rfl
@[simp] theorem driveRst_faultcode (v : Bool) (s : State) : (driveRst v s).faultcode = s.faultcode := rfl
@[simp] theorem driveRst_diag (v : Bool) (s : State) : (driveRst v s).diag = s.diag := rfl
@[simp] theorem driveRst_kpInit (v : Bool) (s : State) : (driveRst v s).kpInit = s.kpInit := rfl
@[simp] theorem driveRst_fbSel (v : Bool) (s : State) : (driveRst v s).fbSel = s.fbSel := rfl
@[simp] theorem driveRst_cs (v : Bool) (s : State) : (driveRst v s).cs = s.cs := rfl
@[simp] theorem driveRst_dc (v : Bool) (s : State) : (driveRst v s).dc = s.dc := rfl
@[simp] theorem driveRst_rst (v : Bool) (s : State) : (driveRst v s).rst = v := rfl
@[simp] theorem driveRst_strobe (v : Bool) (s : State) : (driveRst v s).strobe = s.strobe := rfl
@[simp] theorem driveRst_pal (v : Bool) (s : State) : (driveRst v s).pal = s.pal := rfl
@[simp] theorem driveRst_lut (v : Bool) (s : State) : (driveRst v s).lut = s.lut := rfl
@[simp] theorem driveRst_fb0 (v : Bool) (s : State) : (driveRst v s).fb0 = s.fb0 := rfl
@[simp] theorem driveRst_fb1 (v : Bool) (s : State) : (driveRst v s).fb1 = s.fb1 := rfl
@[simp] theorem driveRst_xbuf (v : Bool) (s : State) : (driveRst v s).xbuf = s.xbuf := rfl
@[simp] theorem driveRst_rowbufGen (v : Bool) (s : State) : (driveRst v s).rowbufGen = s.rowbufGen := rfl
@[simp] theorem driveRst_stageGen (v : Bool) (s : State) : (driveRst v s).stageGen = s.stageGen := rfl
@[simp] theorem driveRst_scan (v : Bool) (s : State) : (driveRst v s).scan = s.scan := rfl
@[simp] theorem driveRst_out (v : Bool) (s : State) : (driveRst v s).out = s.out ++ [.rst v] := rfl
@[simp] theorem driveRst_epoch (v : Bool) (s : State) : (driveRst v s).epoch = s.epoch := rfl
@[simp] theorem driveRst_levels (v : Bool) (s : State) : (driveRst v s).levels = s.levels := rfl
@[simp] theorem driveRst_pending (v : Bool) (s : State) : (driveRst v s).pending = s.pending := rfl
@[simp] theorem driveRst_answers (v : Bool) (s : State) : (driveRst v s).answers = s.answers := rfl

/-! ### driveStrobe -/

@[simp] theorem driveStrobe_a0 (v : BitVec 2) (s : State) : (driveStrobe v s).a0 = s.a0 := rfl
@[simp] theorem driveStrobe_a1 (v : BitVec 2) (s : State) : (driveStrobe v s).a1 = s.a1 := rfl
@[simp] theorem driveStrobe_a2 (v : BitVec 2) (s : State) : (driveStrobe v s).a2 = s.a2 := rfl
@[simp] theorem driveStrobe_a3 (v : BitVec 2) (s : State) : (driveStrobe v s).a3 = s.a3 := rfl
@[simp] theorem driveStrobe_a4 (v : BitVec 2) (s : State) : (driveStrobe v s).a4 = s.a4 := rfl
@[simp] theorem driveStrobe_r0 (v : BitVec 2) (s : State) : (driveStrobe v s).r0 = s.r0 := rfl
@[simp] theorem driveStrobe_created (v : BitVec 2) (s : State) : (driveStrobe v s).created = s.created := rfl
@[simp] theorem driveStrobe_transport (v : BitVec 2) (s : State) : (driveStrobe v s).transport = s.transport := rfl
@[simp] theorem driveStrobe_width (v : BitVec 2) (s : State) : (driveStrobe v s).width = s.width := rfl
@[simp] theorem driveStrobe_height (v : BitVec 2) (s : State) : (driveStrobe v s).height = s.height := rfl
@[simp] theorem driveStrobe_xstart (v : BitVec 2) (s : State) : (driveStrobe v s).xstart = s.xstart := rfl
@[simp] theorem driveStrobe_ystart (v : BitVec 2) (s : State) : (driveStrobe v s).ystart = s.ystart := rfl
@[simp] theorem driveStrobe_blDuty (v : BitVec 2) (s : State) : (driveStrobe v s).blDuty = s.blDuty := rfl
@[simp] theorem driveStrobe_fault (v : BitVec 2) (s : State) : (driveStrobe v s).fault = s.fault := rfl
@[simp] theorem driveStrobe_faultcode (v : BitVec 2) (s : State) : (driveStrobe v s).faultcode = s.faultcode := rfl
@[simp] theorem driveStrobe_diag (v : BitVec 2) (s : State) : (driveStrobe v s).diag = s.diag := rfl
@[simp] theorem driveStrobe_kpInit (v : BitVec 2) (s : State) : (driveStrobe v s).kpInit = s.kpInit := rfl
@[simp] theorem driveStrobe_fbSel (v : BitVec 2) (s : State) : (driveStrobe v s).fbSel = s.fbSel := rfl
@[simp] theorem driveStrobe_cs (v : BitVec 2) (s : State) : (driveStrobe v s).cs = s.cs := rfl
@[simp] theorem driveStrobe_dc (v : BitVec 2) (s : State) : (driveStrobe v s).dc = s.dc := rfl
@[simp] theorem driveStrobe_rst (v : BitVec 2) (s : State) : (driveStrobe v s).rst = s.rst := rfl
@[simp] theorem driveStrobe_strobe (v : BitVec 2) (s : State) : (driveStrobe v s).strobe = v := rfl
@[simp] theorem driveStrobe_pal (v : BitVec 2) (s : State) : (driveStrobe v s).pal = s.pal := rfl
@[simp] theorem driveStrobe_lut (v : BitVec 2) (s : State) : (driveStrobe v s).lut = s.lut := rfl
@[simp] theorem driveStrobe_fb0 (v : BitVec 2) (s : State) : (driveStrobe v s).fb0 = s.fb0 := rfl
@[simp] theorem driveStrobe_fb1 (v : BitVec 2) (s : State) : (driveStrobe v s).fb1 = s.fb1 := rfl
@[simp] theorem driveStrobe_xbuf (v : BitVec 2) (s : State) : (driveStrobe v s).xbuf = s.xbuf := rfl
@[simp] theorem driveStrobe_rowbufGen (v : BitVec 2) (s : State) : (driveStrobe v s).rowbufGen = s.rowbufGen := rfl
@[simp] theorem driveStrobe_stageGen (v : BitVec 2) (s : State) : (driveStrobe v s).stageGen = s.stageGen := rfl
@[simp] theorem driveStrobe_scan (v : BitVec 2) (s : State) : (driveStrobe v s).scan = s.scan := rfl
@[simp] theorem driveStrobe_out (v : BitVec 2) (s : State) : (driveStrobe v s).out = s.out ++ [.strobe v] := rfl
@[simp] theorem driveStrobe_epoch (v : BitVec 2) (s : State) : (driveStrobe v s).epoch = s.epoch := rfl
@[simp] theorem driveStrobe_levels (v : BitVec 2) (s : State) : (driveStrobe v s).levels = s.levels := rfl
@[simp] theorem driveStrobe_pending (v : BitVec 2) (s : State) : (driveStrobe v s).pending = s.pending := rfl
@[simp] theorem driveStrobe_answers (v : BitVec 2) (s : State) : (driveStrobe v s).answers = s.answers := rfl

/-! ### delayMs -/

@[simp] theorem delayMs_a0 (n : Nat) (s : State) : (delayMs n s).a0 = s.a0 := rfl
@[simp] theorem delayMs_a1 (n : Nat) (s : State) : (delayMs n s).a1 = s.a1 := rfl
@[simp] theorem delayMs_a2 (n : Nat) (s : State) : (delayMs n s).a2 = s.a2 := rfl
@[simp] theorem delayMs_a3 (n : Nat) (s : State) : (delayMs n s).a3 = s.a3 := rfl
@[simp] theorem delayMs_a4 (n : Nat) (s : State) : (delayMs n s).a4 = s.a4 := rfl
@[simp] theorem delayMs_r0 (n : Nat) (s : State) : (delayMs n s).r0 = s.r0 := rfl
@[simp] theorem delayMs_created (n : Nat) (s : State) : (delayMs n s).created = s.created := rfl
@[simp] theorem delayMs_transport (n : Nat) (s : State) : (delayMs n s).transport = s.transport := rfl
@[simp] theorem delayMs_width (n : Nat) (s : State) : (delayMs n s).width = s.width := rfl
@[simp] theorem delayMs_height (n : Nat) (s : State) : (delayMs n s).height = s.height := rfl
@[simp] theorem delayMs_xstart (n : Nat) (s : State) : (delayMs n s).xstart = s.xstart := rfl
@[simp] theorem delayMs_ystart (n : Nat) (s : State) : (delayMs n s).ystart = s.ystart := rfl
@[simp] theorem delayMs_blDuty (n : Nat) (s : State) : (delayMs n s).blDuty = s.blDuty := rfl
@[simp] theorem delayMs_fault (n : Nat) (s : State) : (delayMs n s).fault = s.fault := rfl
@[simp] theorem delayMs_faultcode (n : Nat) (s : State) : (delayMs n s).faultcode = s.faultcode := rfl
@[simp] theorem delayMs_diag (n : Nat) (s : State) : (delayMs n s).diag = s.diag := rfl
@[simp] theorem delayMs_kpInit (n : Nat) (s : State) : (delayMs n s).kpInit = s.kpInit := rfl
@[simp] theorem delayMs_fbSel (n : Nat) (s : State) : (delayMs n s).fbSel = s.fbSel := rfl
@[simp] theorem delayMs_cs (n : Nat) (s : State) : (delayMs n s).cs = s.cs := rfl
@[simp] theorem delayMs_dc (n : Nat) (s : State) : (delayMs n s).dc = s.dc := rfl
@[simp] theorem delayMs_rst (n : Nat) (s : State) : (delayMs n s).rst = s.rst := rfl
@[simp] theorem delayMs_strobe (n : Nat) (s : State) : (delayMs n s).strobe = s.strobe := rfl
@[simp] theorem delayMs_pal (n : Nat) (s : State) : (delayMs n s).pal = s.pal := rfl
@[simp] theorem delayMs_lut (n : Nat) (s : State) : (delayMs n s).lut = s.lut := rfl
@[simp] theorem delayMs_fb0 (n : Nat) (s : State) : (delayMs n s).fb0 = s.fb0 := rfl
@[simp] theorem delayMs_fb1 (n : Nat) (s : State) : (delayMs n s).fb1 = s.fb1 := rfl
@[simp] theorem delayMs_xbuf (n : Nat) (s : State) : (delayMs n s).xbuf = s.xbuf := rfl
@[simp] theorem delayMs_rowbufGen (n : Nat) (s : State) : (delayMs n s).rowbufGen = s.rowbufGen := rfl
@[simp] theorem delayMs_stageGen (n : Nat) (s : State) : (delayMs n s).stageGen = s.stageGen := rfl
@[simp] theorem delayMs_scan (n : Nat) (s : State) : (delayMs n s).scan = s.scan := rfl
@[simp] theorem delayMs_out (n : Nat) (s : State) : (delayMs n s).out = s.out ++ [.delayMs n] := rfl
@[simp] theorem delayMs_epoch (n : Nat) (s : State) : (delayMs n s).epoch = s.epoch := rfl
@[simp] theorem delayMs_levels (n : Nat) (s : State) : (delayMs n s).levels = s.levels := rfl
@[simp] theorem delayMs_pending (n : Nat) (s : State) : (delayMs n s).pending = s.pending := rfl
@[simp] theorem delayMs_answers (n : Nat) (s : State) : (delayMs n s).answers = s.answers := rfl

/-! ### delayUs -/

@[simp] theorem delayUs_a0 (n : Nat) (s : State) : (delayUs n s).a0 = s.a0 := rfl
@[simp] theorem delayUs_a1 (n : Nat) (s : State) : (delayUs n s).a1 = s.a1 := rfl
@[simp] theorem delayUs_a2 (n : Nat) (s : State) : (delayUs n s).a2 = s.a2 := rfl
@[simp] theorem delayUs_a3 (n : Nat) (s : State) : (delayUs n s).a3 = s.a3 := rfl
@[simp] theorem delayUs_a4 (n : Nat) (s : State) : (delayUs n s).a4 = s.a4 := rfl
@[simp] theorem delayUs_r0 (n : Nat) (s : State) : (delayUs n s).r0 = s.r0 := rfl
@[simp] theorem delayUs_created (n : Nat) (s : State) : (delayUs n s).created = s.created := rfl
@[simp] theorem delayUs_transport (n : Nat) (s : State) : (delayUs n s).transport = s.transport := rfl
@[simp] theorem delayUs_width (n : Nat) (s : State) : (delayUs n s).width = s.width := rfl
@[simp] theorem delayUs_height (n : Nat) (s : State) : (delayUs n s).height = s.height := rfl
@[simp] theorem delayUs_xstart (n : Nat) (s : State) : (delayUs n s).xstart = s.xstart := rfl
@[simp] theorem delayUs_ystart (n : Nat) (s : State) : (delayUs n s).ystart = s.ystart := rfl
@[simp] theorem delayUs_blDuty (n : Nat) (s : State) : (delayUs n s).blDuty = s.blDuty := rfl
@[simp] theorem delayUs_fault (n : Nat) (s : State) : (delayUs n s).fault = s.fault := rfl
@[simp] theorem delayUs_faultcode (n : Nat) (s : State) : (delayUs n s).faultcode = s.faultcode := rfl
@[simp] theorem delayUs_diag (n : Nat) (s : State) : (delayUs n s).diag = s.diag := rfl
@[simp] theorem delayUs_kpInit (n : Nat) (s : State) : (delayUs n s).kpInit = s.kpInit := rfl
@[simp] theorem delayUs_fbSel (n : Nat) (s : State) : (delayUs n s).fbSel = s.fbSel := rfl
@[simp] theorem delayUs_cs (n : Nat) (s : State) : (delayUs n s).cs = s.cs := rfl
@[simp] theorem delayUs_dc (n : Nat) (s : State) : (delayUs n s).dc = s.dc := rfl
@[simp] theorem delayUs_rst (n : Nat) (s : State) : (delayUs n s).rst = s.rst := rfl
@[simp] theorem delayUs_strobe (n : Nat) (s : State) : (delayUs n s).strobe = s.strobe := rfl
@[simp] theorem delayUs_pal (n : Nat) (s : State) : (delayUs n s).pal = s.pal := rfl
@[simp] theorem delayUs_lut (n : Nat) (s : State) : (delayUs n s).lut = s.lut := rfl
@[simp] theorem delayUs_fb0 (n : Nat) (s : State) : (delayUs n s).fb0 = s.fb0 := rfl
@[simp] theorem delayUs_fb1 (n : Nat) (s : State) : (delayUs n s).fb1 = s.fb1 := rfl
@[simp] theorem delayUs_xbuf (n : Nat) (s : State) : (delayUs n s).xbuf = s.xbuf := rfl
@[simp] theorem delayUs_rowbufGen (n : Nat) (s : State) : (delayUs n s).rowbufGen = s.rowbufGen := rfl
@[simp] theorem delayUs_stageGen (n : Nat) (s : State) : (delayUs n s).stageGen = s.stageGen := rfl
@[simp] theorem delayUs_scan (n : Nat) (s : State) : (delayUs n s).scan = s.scan := rfl
@[simp] theorem delayUs_out (n : Nat) (s : State) : (delayUs n s).out = s.out ++ [.delayUs n] := rfl
@[simp] theorem delayUs_epoch (n : Nat) (s : State) : (delayUs n s).epoch = s.epoch := rfl
@[simp] theorem delayUs_levels (n : Nat) (s : State) : (delayUs n s).levels = s.levels := rfl
@[simp] theorem delayUs_pending (n : Nat) (s : State) : (delayUs n s).pending = s.pending := rfl
@[simp] theorem delayUs_answers (n : Nat) (s : State) : (delayUs n s).answers = s.answers := rfl

/-! ### raise -/

@[simp] theorem raise_a0 (t : Trap) (s : State) : (raise t s).a0 = s.a0 := rfl
@[simp] theorem raise_a1 (t : Trap) (s : State) : (raise t s).a1 = s.a1 := rfl
@[simp] theorem raise_a2 (t : Trap) (s : State) : (raise t s).a2 = s.a2 := rfl
@[simp] theorem raise_a3 (t : Trap) (s : State) : (raise t s).a3 = s.a3 := rfl
@[simp] theorem raise_a4 (t : Trap) (s : State) : (raise t s).a4 = s.a4 := rfl
@[simp] theorem raise_r0 (t : Trap) (s : State) : (raise t s).r0 = s.r0 := rfl
@[simp] theorem raise_created (t : Trap) (s : State) : (raise t s).created = s.created := rfl
@[simp] theorem raise_transport (t : Trap) (s : State) : (raise t s).transport = s.transport := rfl
@[simp] theorem raise_width (t : Trap) (s : State) : (raise t s).width = s.width := rfl
@[simp] theorem raise_height (t : Trap) (s : State) : (raise t s).height = s.height := rfl
@[simp] theorem raise_xstart (t : Trap) (s : State) : (raise t s).xstart = s.xstart := rfl
@[simp] theorem raise_ystart (t : Trap) (s : State) : (raise t s).ystart = s.ystart := rfl
@[simp] theorem raise_blDuty (t : Trap) (s : State) : (raise t s).blDuty = s.blDuty := rfl
@[simp] theorem raise_fault (t : Trap) (s : State) : (raise t s).fault = true := rfl
@[simp] theorem raise_faultcode (t : Trap) (s : State) : (raise t s).faultcode = if s.fault then s.faultcode else t.code := rfl
@[simp] theorem raise_diag (t : Trap) (s : State) : (raise t s).diag = s.diag := rfl
@[simp] theorem raise_kpInit (t : Trap) (s : State) : (raise t s).kpInit = s.kpInit := rfl
@[simp] theorem raise_fbSel (t : Trap) (s : State) : (raise t s).fbSel = s.fbSel := rfl
@[simp] theorem raise_cs (t : Trap) (s : State) : (raise t s).cs = s.cs := rfl
@[simp] theorem raise_dc (t : Trap) (s : State) : (raise t s).dc = s.dc := rfl
@[simp] theorem raise_rst (t : Trap) (s : State) : (raise t s).rst = s.rst := rfl
@[simp] theorem raise_strobe (t : Trap) (s : State) : (raise t s).strobe = s.strobe := rfl
@[simp] theorem raise_pal (t : Trap) (s : State) : (raise t s).pal = s.pal := rfl
@[simp] theorem raise_lut (t : Trap) (s : State) : (raise t s).lut = s.lut := rfl
@[simp] theorem raise_fb0 (t : Trap) (s : State) : (raise t s).fb0 = s.fb0 := rfl
@[simp] theorem raise_fb1 (t : Trap) (s : State) : (raise t s).fb1 = s.fb1 := rfl
@[simp] theorem raise_xbuf (t : Trap) (s : State) : (raise t s).xbuf = s.xbuf := rfl
@[simp] theorem raise_rowbufGen (t : Trap) (s : State) : (raise t s).rowbufGen = s.rowbufGen := rfl
@[simp] theorem raise_stageGen (t : Trap) (s : State) : (raise t s).stageGen = s.stageGen := rfl
@[simp] theorem raise_scan (t : Trap) (s : State) : (raise t s).scan = s.scan := rfl
@[simp] theorem raise_out (t : Trap) (s : State) : (raise t s).out = s.out := rfl
@[simp] theorem raise_epoch (t : Trap) (s : State) : (raise t s).epoch = s.epoch := rfl
@[simp] theorem raise_levels (t : Trap) (s : State) : (raise t s).levels = s.levels := rfl
@[simp] theorem raise_pending (t : Trap) (s : State) : (raise t s).pending = s.pending := rfl
@[simp] theorem raise_answers (t : Trap) (s : State) : (raise t s).answers = s.answers := rfl

/-! ### answer -/

@[simp] theorem answer_a0 (v : Word) (s : State) : (answer v s).a0 = s.a0 := rfl
@[simp] theorem answer_a1 (v : Word) (s : State) : (answer v s).a1 = s.a1 := rfl
@[simp] theorem answer_a2 (v : Word) (s : State) : (answer v s).a2 = s.a2 := rfl
@[simp] theorem answer_a3 (v : Word) (s : State) : (answer v s).a3 = s.a3 := rfl
@[simp] theorem answer_a4 (v : Word) (s : State) : (answer v s).a4 = s.a4 := rfl
@[simp] theorem answer_r0 (v : Word) (s : State) : (answer v s).r0 = s.r0 := rfl
@[simp] theorem answer_created (v : Word) (s : State) : (answer v s).created = s.created := rfl
@[simp] theorem answer_transport (v : Word) (s : State) : (answer v s).transport = s.transport := rfl
@[simp] theorem answer_width (v : Word) (s : State) : (answer v s).width = s.width := rfl
@[simp] theorem answer_height (v : Word) (s : State) : (answer v s).height = s.height := rfl
@[simp] theorem answer_xstart (v : Word) (s : State) : (answer v s).xstart = s.xstart := rfl
@[simp] theorem answer_ystart (v : Word) (s : State) : (answer v s).ystart = s.ystart := rfl
@[simp] theorem answer_blDuty (v : Word) (s : State) : (answer v s).blDuty = s.blDuty := rfl
@[simp] theorem answer_fault (v : Word) (s : State) : (answer v s).fault = s.fault := rfl
@[simp] theorem answer_faultcode (v : Word) (s : State) : (answer v s).faultcode = s.faultcode := rfl
@[simp] theorem answer_diag (v : Word) (s : State) : (answer v s).diag = s.diag := rfl
@[simp] theorem answer_kpInit (v : Word) (s : State) : (answer v s).kpInit = s.kpInit := rfl
@[simp] theorem answer_fbSel (v : Word) (s : State) : (answer v s).fbSel = s.fbSel := rfl
@[simp] theorem answer_cs (v : Word) (s : State) : (answer v s).cs = s.cs := rfl
@[simp] theorem answer_dc (v : Word) (s : State) : (answer v s).dc = s.dc := rfl
@[simp] theorem answer_rst (v : Word) (s : State) : (answer v s).rst = s.rst := rfl
@[simp] theorem answer_strobe (v : Word) (s : State) : (answer v s).strobe = s.strobe := rfl
@[simp] theorem answer_pal (v : Word) (s : State) : (answer v s).pal = s.pal := rfl
@[simp] theorem answer_lut (v : Word) (s : State) : (answer v s).lut = s.lut := rfl
@[simp] theorem answer_fb0 (v : Word) (s : State) : (answer v s).fb0 = s.fb0 := rfl
@[simp] theorem answer_fb1 (v : Word) (s : State) : (answer v s).fb1 = s.fb1 := rfl
@[simp] theorem answer_xbuf (v : Word) (s : State) : (answer v s).xbuf = s.xbuf := rfl
@[simp] theorem answer_rowbufGen (v : Word) (s : State) : (answer v s).rowbufGen = s.rowbufGen := rfl
@[simp] theorem answer_stageGen (v : Word) (s : State) : (answer v s).stageGen = s.stageGen := rfl
@[simp] theorem answer_scan (v : Word) (s : State) : (answer v s).scan = s.scan := rfl
@[simp] theorem answer_out (v : Word) (s : State) : (answer v s).out = s.out := rfl
@[simp] theorem answer_epoch (v : Word) (s : State) : (answer v s).epoch = s.epoch := rfl
@[simp] theorem answer_levels (v : Word) (s : State) : (answer v s).levels = s.levels := rfl
@[simp] theorem answer_pending (v : Word) (s : State) : (answer v s).pending = s.pending := rfl
@[simp] theorem answer_answers (v : Word) (s : State) : (answer v s).answers = s.answers ++ [v] := rfl

/-! ### disturbRowbuf -/

@[simp] theorem disturbRowbuf_a0 (s : State) : (disturbRowbuf s).a0 = s.a0 := rfl
@[simp] theorem disturbRowbuf_a1 (s : State) : (disturbRowbuf s).a1 = s.a1 := rfl
@[simp] theorem disturbRowbuf_a2 (s : State) : (disturbRowbuf s).a2 = s.a2 := rfl
@[simp] theorem disturbRowbuf_a3 (s : State) : (disturbRowbuf s).a3 = s.a3 := rfl
@[simp] theorem disturbRowbuf_a4 (s : State) : (disturbRowbuf s).a4 = s.a4 := rfl
@[simp] theorem disturbRowbuf_r0 (s : State) : (disturbRowbuf s).r0 = s.r0 := rfl
@[simp] theorem disturbRowbuf_created (s : State) : (disturbRowbuf s).created = s.created := rfl
@[simp] theorem disturbRowbuf_transport (s : State) : (disturbRowbuf s).transport = s.transport := rfl
@[simp] theorem disturbRowbuf_width (s : State) : (disturbRowbuf s).width = s.width := rfl
@[simp] theorem disturbRowbuf_height (s : State) : (disturbRowbuf s).height = s.height := rfl
@[simp] theorem disturbRowbuf_xstart (s : State) : (disturbRowbuf s).xstart = s.xstart := rfl
@[simp] theorem disturbRowbuf_ystart (s : State) : (disturbRowbuf s).ystart = s.ystart := rfl
@[simp] theorem disturbRowbuf_blDuty (s : State) : (disturbRowbuf s).blDuty = s.blDuty := rfl
@[simp] theorem disturbRowbuf_fault (s : State) : (disturbRowbuf s).fault = s.fault := rfl
@[simp] theorem disturbRowbuf_faultcode (s : State) : (disturbRowbuf s).faultcode = s.faultcode := rfl
@[simp] theorem disturbRowbuf_diag (s : State) : (disturbRowbuf s).diag = s.diag := rfl
@[simp] theorem disturbRowbuf_kpInit (s : State) : (disturbRowbuf s).kpInit = s.kpInit := rfl
@[simp] theorem disturbRowbuf_fbSel (s : State) : (disturbRowbuf s).fbSel = s.fbSel := rfl
@[simp] theorem disturbRowbuf_cs (s : State) : (disturbRowbuf s).cs = s.cs := rfl
@[simp] theorem disturbRowbuf_dc (s : State) : (disturbRowbuf s).dc = s.dc := rfl
@[simp] theorem disturbRowbuf_rst (s : State) : (disturbRowbuf s).rst = s.rst := rfl
@[simp] theorem disturbRowbuf_strobe (s : State) : (disturbRowbuf s).strobe = s.strobe := rfl
@[simp] theorem disturbRowbuf_pal (s : State) : (disturbRowbuf s).pal = s.pal := rfl
@[simp] theorem disturbRowbuf_lut (s : State) : (disturbRowbuf s).lut = s.lut := rfl
@[simp] theorem disturbRowbuf_fb0 (s : State) : (disturbRowbuf s).fb0 = s.fb0 := rfl
@[simp] theorem disturbRowbuf_fb1 (s : State) : (disturbRowbuf s).fb1 = s.fb1 := rfl
@[simp] theorem disturbRowbuf_xbuf (s : State) : (disturbRowbuf s).xbuf = s.xbuf := rfl
@[simp] theorem disturbRowbuf_rowbufGen (s : State) : (disturbRowbuf s).rowbufGen = s.rowbufGen + 1 := rfl
@[simp] theorem disturbRowbuf_stageGen (s : State) : (disturbRowbuf s).stageGen = s.stageGen := rfl
@[simp] theorem disturbRowbuf_scan (s : State) : (disturbRowbuf s).scan = s.scan := rfl
@[simp] theorem disturbRowbuf_out (s : State) : (disturbRowbuf s).out = s.out := rfl
@[simp] theorem disturbRowbuf_epoch (s : State) : (disturbRowbuf s).epoch = s.epoch := rfl
@[simp] theorem disturbRowbuf_levels (s : State) : (disturbRowbuf s).levels = s.levels := rfl
@[simp] theorem disturbRowbuf_pending (s : State) : (disturbRowbuf s).pending = s.pending := rfl
@[simp] theorem disturbRowbuf_answers (s : State) : (disturbRowbuf s).answers = s.answers := rfl

/-! ### disturbStage -/

@[simp] theorem disturbStage_a0 (s : State) : (disturbStage s).a0 = s.a0 := rfl
@[simp] theorem disturbStage_a1 (s : State) : (disturbStage s).a1 = s.a1 := rfl
@[simp] theorem disturbStage_a2 (s : State) : (disturbStage s).a2 = s.a2 := rfl
@[simp] theorem disturbStage_a3 (s : State) : (disturbStage s).a3 = s.a3 := rfl
@[simp] theorem disturbStage_a4 (s : State) : (disturbStage s).a4 = s.a4 := rfl
@[simp] theorem disturbStage_r0 (s : State) : (disturbStage s).r0 = s.r0 := rfl
@[simp] theorem disturbStage_created (s : State) : (disturbStage s).created = s.created := rfl
@[simp] theorem disturbStage_transport (s : State) : (disturbStage s).transport = s.transport := rfl
@[simp] theorem disturbStage_width (s : State) : (disturbStage s).width = s.width := rfl
@[simp] theorem disturbStage_height (s : State) : (disturbStage s).height = s.height := rfl
@[simp] theorem disturbStage_xstart (s : State) : (disturbStage s).xstart = s.xstart := rfl
@[simp] theorem disturbStage_ystart (s : State) : (disturbStage s).ystart = s.ystart := rfl
@[simp] theorem disturbStage_blDuty (s : State) : (disturbStage s).blDuty = s.blDuty := rfl
@[simp] theorem disturbStage_fault (s : State) : (disturbStage s).fault = s.fault := rfl
@[simp] theorem disturbStage_faultcode (s : State) : (disturbStage s).faultcode = s.faultcode := rfl
@[simp] theorem disturbStage_diag (s : State) : (disturbStage s).diag = s.diag := rfl
@[simp] theorem disturbStage_kpInit (s : State) : (disturbStage s).kpInit = s.kpInit := rfl
@[simp] theorem disturbStage_fbSel (s : State) : (disturbStage s).fbSel = s.fbSel := rfl
@[simp] theorem disturbStage_cs (s : State) : (disturbStage s).cs = s.cs := rfl
@[simp] theorem disturbStage_dc (s : State) : (disturbStage s).dc = s.dc := rfl
@[simp] theorem disturbStage_rst (s : State) : (disturbStage s).rst = s.rst := rfl
@[simp] theorem disturbStage_strobe (s : State) : (disturbStage s).strobe = s.strobe := rfl
@[simp] theorem disturbStage_pal (s : State) : (disturbStage s).pal = s.pal := rfl
@[simp] theorem disturbStage_lut (s : State) : (disturbStage s).lut = s.lut := rfl
@[simp] theorem disturbStage_fb0 (s : State) : (disturbStage s).fb0 = s.fb0 := rfl
@[simp] theorem disturbStage_fb1 (s : State) : (disturbStage s).fb1 = s.fb1 := rfl
@[simp] theorem disturbStage_xbuf (s : State) : (disturbStage s).xbuf = s.xbuf := rfl
@[simp] theorem disturbStage_rowbufGen (s : State) : (disturbStage s).rowbufGen = s.rowbufGen := rfl
@[simp] theorem disturbStage_stageGen (s : State) : (disturbStage s).stageGen = s.stageGen + 1 := rfl
@[simp] theorem disturbStage_scan (s : State) : (disturbStage s).scan = s.scan := rfl
@[simp] theorem disturbStage_out (s : State) : (disturbStage s).out = s.out := rfl
@[simp] theorem disturbStage_epoch (s : State) : (disturbStage s).epoch = s.epoch := rfl
@[simp] theorem disturbStage_levels (s : State) : (disturbStage s).levels = s.levels := rfl
@[simp] theorem disturbStage_pending (s : State) : (disturbStage s).pending = s.pending := rfl
@[simp] theorem disturbStage_answers (s : State) : (disturbStage s).answers = s.answers := rfl

/-! ### setKey -/

@[simp] theorem setKey_a0 (p : Fin 2) (i : Fin 5) (v : Bool) (s : State) : (setKey p i v s).a0 = s.a0 := rfl
@[simp] theorem setKey_a1 (p : Fin 2) (i : Fin 5) (v : Bool) (s : State) : (setKey p i v s).a1 = s.a1 := rfl
@[simp] theorem setKey_a2 (p : Fin 2) (i : Fin 5) (v : Bool) (s : State) : (setKey p i v s).a2 = s.a2 := rfl
@[simp] theorem setKey_a3 (p : Fin 2) (i : Fin 5) (v : Bool) (s : State) : (setKey p i v s).a3 = s.a3 := rfl
@[simp] theorem setKey_a4 (p : Fin 2) (i : Fin 5) (v : Bool) (s : State) : (setKey p i v s).a4 = s.a4 := rfl
@[simp] theorem setKey_r0 (p : Fin 2) (i : Fin 5) (v : Bool) (s : State) : (setKey p i v s).r0 = s.r0 := rfl
@[simp] theorem setKey_created (p : Fin 2) (i : Fin 5) (v : Bool) (s : State) : (setKey p i v s).created = s.created := rfl
@[simp] theorem setKey_transport (p : Fin 2) (i : Fin 5) (v : Bool) (s : State) : (setKey p i v s).transport = s.transport := rfl
@[simp] theorem setKey_width (p : Fin 2) (i : Fin 5) (v : Bool) (s : State) : (setKey p i v s).width = s.width := rfl
@[simp] theorem setKey_height (p : Fin 2) (i : Fin 5) (v : Bool) (s : State) : (setKey p i v s).height = s.height := rfl
@[simp] theorem setKey_xstart (p : Fin 2) (i : Fin 5) (v : Bool) (s : State) : (setKey p i v s).xstart = s.xstart := rfl
@[simp] theorem setKey_ystart (p : Fin 2) (i : Fin 5) (v : Bool) (s : State) : (setKey p i v s).ystart = s.ystart := rfl
@[simp] theorem setKey_blDuty (p : Fin 2) (i : Fin 5) (v : Bool) (s : State) : (setKey p i v s).blDuty = s.blDuty := rfl
@[simp] theorem setKey_fault (p : Fin 2) (i : Fin 5) (v : Bool) (s : State) : (setKey p i v s).fault = s.fault := rfl
@[simp] theorem setKey_faultcode (p : Fin 2) (i : Fin 5) (v : Bool) (s : State) : (setKey p i v s).faultcode = s.faultcode := rfl
@[simp] theorem setKey_diag (p : Fin 2) (i : Fin 5) (v : Bool) (s : State) : (setKey p i v s).diag = s.diag := rfl
@[simp] theorem setKey_kpInit (p : Fin 2) (i : Fin 5) (v : Bool) (s : State) : (setKey p i v s).kpInit = s.kpInit := rfl
@[simp] theorem setKey_fbSel (p : Fin 2) (i : Fin 5) (v : Bool) (s : State) : (setKey p i v s).fbSel = s.fbSel := rfl
@[simp] theorem setKey_cs (p : Fin 2) (i : Fin 5) (v : Bool) (s : State) : (setKey p i v s).cs = s.cs := rfl
@[simp] theorem setKey_dc (p : Fin 2) (i : Fin 5) (v : Bool) (s : State) : (setKey p i v s).dc = s.dc := rfl
@[simp] theorem setKey_rst (p : Fin 2) (i : Fin 5) (v : Bool) (s : State) : (setKey p i v s).rst = s.rst := rfl
@[simp] theorem setKey_strobe (p : Fin 2) (i : Fin 5) (v : Bool) (s : State) : (setKey p i v s).strobe = s.strobe := rfl
@[simp] theorem setKey_pal (p : Fin 2) (i : Fin 5) (v : Bool) (s : State) : (setKey p i v s).pal = s.pal := rfl
@[simp] theorem setKey_lut (p : Fin 2) (i : Fin 5) (v : Bool) (s : State) : (setKey p i v s).lut = s.lut := rfl
@[simp] theorem setKey_fb0 (p : Fin 2) (i : Fin 5) (v : Bool) (s : State) : (setKey p i v s).fb0 = s.fb0 := rfl
@[simp] theorem setKey_fb1 (p : Fin 2) (i : Fin 5) (v : Bool) (s : State) : (setKey p i v s).fb1 = s.fb1 := rfl
@[simp] theorem setKey_xbuf (p : Fin 2) (i : Fin 5) (v : Bool) (s : State) : (setKey p i v s).xbuf = s.xbuf := rfl
@[simp] theorem setKey_rowbufGen (p : Fin 2) (i : Fin 5) (v : Bool) (s : State) : (setKey p i v s).rowbufGen = s.rowbufGen := rfl
@[simp] theorem setKey_stageGen (p : Fin 2) (i : Fin 5) (v : Bool) (s : State) : (setKey p i v s).stageGen = s.stageGen := rfl
@[simp] theorem setKey_scan (p : Fin 2) (i : Fin 5) (v : Bool) (s : State) : (setKey p i v s).scan = s.scan.set p (s.scan[p].set i v) := rfl
@[simp] theorem setKey_out (p : Fin 2) (i : Fin 5) (v : Bool) (s : State) : (setKey p i v s).out = s.out := rfl
@[simp] theorem setKey_epoch (p : Fin 2) (i : Fin 5) (v : Bool) (s : State) : (setKey p i v s).epoch = s.epoch := rfl
@[simp] theorem setKey_levels (p : Fin 2) (i : Fin 5) (v : Bool) (s : State) : (setKey p i v s).levels = s.levels := rfl
@[simp] theorem setKey_pending (p : Fin 2) (i : Fin 5) (v : Bool) (s : State) : (setKey p i v s).pending = s.pending := rfl
@[simp] theorem setKey_answers (p : Fin 2) (i : Fin 5) (v : Bool) (s : State) : (setKey p i v s).answers = s.answers := rfl

/-! ### convertPalette -/

@[simp] theorem convertPalette_a0 (s : State) : (convertPalette s).a0 = s.a0 := rfl
@[simp] theorem convertPalette_a1 (s : State) : (convertPalette s).a1 = s.a1 := rfl
@[simp] theorem convertPalette_a2 (s : State) : (convertPalette s).a2 = s.a2 := rfl
@[simp] theorem convertPalette_a3 (s : State) : (convertPalette s).a3 = s.a3 := rfl
@[simp] theorem convertPalette_a4 (s : State) : (convertPalette s).a4 = s.a4 := rfl
@[simp] theorem convertPalette_r0 (s : State) : (convertPalette s).r0 = s.r0 := rfl
@[simp] theorem convertPalette_created (s : State) : (convertPalette s).created = s.created := rfl
@[simp] theorem convertPalette_transport (s : State) : (convertPalette s).transport = s.transport := rfl
@[simp] theorem convertPalette_width (s : State) : (convertPalette s).width = s.width := rfl
@[simp] theorem convertPalette_height (s : State) : (convertPalette s).height = s.height := rfl
@[simp] theorem convertPalette_xstart (s : State) : (convertPalette s).xstart = s.xstart := rfl
@[simp] theorem convertPalette_ystart (s : State) : (convertPalette s).ystart = s.ystart := rfl
@[simp] theorem convertPalette_blDuty (s : State) : (convertPalette s).blDuty = s.blDuty := rfl
@[simp] theorem convertPalette_fault (s : State) : (convertPalette s).fault = s.fault := rfl
@[simp] theorem convertPalette_faultcode (s : State) : (convertPalette s).faultcode = s.faultcode := rfl
@[simp] theorem convertPalette_diag (s : State) : (convertPalette s).diag = s.diag := rfl
@[simp] theorem convertPalette_kpInit (s : State) : (convertPalette s).kpInit = s.kpInit := rfl
@[simp] theorem convertPalette_fbSel (s : State) : (convertPalette s).fbSel = s.fbSel := rfl
@[simp] theorem convertPalette_cs (s : State) : (convertPalette s).cs = s.cs := rfl
@[simp] theorem convertPalette_dc (s : State) : (convertPalette s).dc = s.dc := rfl
@[simp] theorem convertPalette_rst (s : State) : (convertPalette s).rst = s.rst := rfl
@[simp] theorem convertPalette_strobe (s : State) : (convertPalette s).strobe = s.strobe := rfl
@[simp] theorem convertPalette_pal (s : State) : (convertPalette s).pal = s.pal := rfl
@[simp] theorem convertPalette_lut (s : State) : (convertPalette s).lut = (List.range palEntries).map fun i => (i, storedEntry s i) := by
  rw [convertPalette]
@[simp] theorem convertPalette_fb0 (s : State) : (convertPalette s).fb0 = s.fb0 := rfl
@[simp] theorem convertPalette_fb1 (s : State) : (convertPalette s).fb1 = s.fb1 := rfl
@[simp] theorem convertPalette_xbuf (s : State) : (convertPalette s).xbuf = s.xbuf := rfl
@[simp] theorem convertPalette_rowbufGen (s : State) : (convertPalette s).rowbufGen = s.rowbufGen := rfl
@[simp] theorem convertPalette_stageGen (s : State) : (convertPalette s).stageGen = s.stageGen := rfl
@[simp] theorem convertPalette_scan (s : State) : (convertPalette s).scan = s.scan := rfl
@[simp] theorem convertPalette_out (s : State) : (convertPalette s).out = s.out := rfl
@[simp] theorem convertPalette_epoch (s : State) : (convertPalette s).epoch = s.epoch := rfl
@[simp] theorem convertPalette_levels (s : State) : (convertPalette s).levels = s.levels := rfl
@[simp] theorem convertPalette_pending (s : State) : (convertPalette s).pending = s.pending := rfl
@[simp] theorem convertPalette_answers (s : State) : (convertPalette s).answers = s.answers := rfl

/-! ### sent -/

@[simp] theorem sent_a0 (events : List Event) (s : State) : (sent s events).a0 = s.a0 := rfl
@[simp] theorem sent_a1 (events : List Event) (s : State) : (sent s events).a1 = s.a1 := rfl
@[simp] theorem sent_a2 (events : List Event) (s : State) : (sent s events).a2 = s.a2 := rfl
@[simp] theorem sent_a3 (events : List Event) (s : State) : (sent s events).a3 = s.a3 := rfl
@[simp] theorem sent_a4 (events : List Event) (s : State) : (sent s events).a4 = s.a4 := rfl
@[simp] theorem sent_r0 (events : List Event) (s : State) : (sent s events).r0 = s.r0 := rfl
@[simp] theorem sent_created (events : List Event) (s : State) : (sent s events).created = s.created := rfl
@[simp] theorem sent_transport (events : List Event) (s : State) : (sent s events).transport = s.transport := rfl
@[simp] theorem sent_width (events : List Event) (s : State) : (sent s events).width = s.width := rfl
@[simp] theorem sent_height (events : List Event) (s : State) : (sent s events).height = s.height := rfl
@[simp] theorem sent_xstart (events : List Event) (s : State) : (sent s events).xstart = s.xstart := rfl
@[simp] theorem sent_ystart (events : List Event) (s : State) : (sent s events).ystart = s.ystart := rfl
@[simp] theorem sent_blDuty (events : List Event) (s : State) : (sent s events).blDuty = s.blDuty := rfl
@[simp] theorem sent_fault (events : List Event) (s : State) : (sent s events).fault = s.fault := rfl
@[simp] theorem sent_faultcode (events : List Event) (s : State) : (sent s events).faultcode = s.faultcode := rfl
@[simp] theorem sent_diag (events : List Event) (s : State) : (sent s events).diag = s.diag := rfl
@[simp] theorem sent_kpInit (events : List Event) (s : State) : (sent s events).kpInit = s.kpInit := rfl
@[simp] theorem sent_fbSel (events : List Event) (s : State) : (sent s events).fbSel = s.fbSel := rfl
@[simp] theorem sent_cs (events : List Event) (s : State) : (sent s events).cs = false := rfl
@[simp] theorem sent_dc (events : List Event) (s : State) : (sent s events).dc = true := rfl
@[simp] theorem sent_rst (events : List Event) (s : State) : (sent s events).rst = s.rst := rfl
@[simp] theorem sent_strobe (events : List Event) (s : State) : (sent s events).strobe = s.strobe := rfl
@[simp] theorem sent_pal (events : List Event) (s : State) : (sent s events).pal = s.pal := rfl
@[simp] theorem sent_lut (events : List Event) (s : State) : (sent s events).lut = s.lut := rfl
@[simp] theorem sent_fb0 (events : List Event) (s : State) : (sent s events).fb0 = s.fb0 := rfl
@[simp] theorem sent_fb1 (events : List Event) (s : State) : (sent s events).fb1 = s.fb1 := rfl
@[simp] theorem sent_xbuf (events : List Event) (s : State) : (sent s events).xbuf = s.xbuf := rfl
@[simp] theorem sent_rowbufGen (events : List Event) (s : State) : (sent s events).rowbufGen = s.rowbufGen := rfl
@[simp] theorem sent_stageGen (events : List Event) (s : State) : (sent s events).stageGen = s.stageGen := rfl
@[simp] theorem sent_scan (events : List Event) (s : State) : (sent s events).scan = s.scan := rfl
@[simp] theorem sent_out (events : List Event) (s : State) : (sent s events).out = s.out ++ events := rfl
@[simp] theorem sent_epoch (events : List Event) (s : State) : (sent s events).epoch = s.epoch := rfl
@[simp] theorem sent_levels (events : List Event) (s : State) : (sent s events).levels = s.levels := rfl
@[simp] theorem sent_pending (events : List Event) (s : State) : (sent s events).pending = s.pending := rfl
@[simp] theorem sent_answers (events : List Event) (s : State) : (sent s events).answers = s.answers := rfl

/-! ### filled -/

@[simp] theorem filled_a0 (events : List Event) (s : State) : (filled s events).a0 = s.a0 := rfl
@[simp] theorem filled_a1 (events : List Event) (s : State) : (filled s events).a1 = s.a1 := rfl
@[simp] theorem filled_a2 (events : List Event) (s : State) : (filled s events).a2 = s.a2 := rfl
@[simp] theorem filled_a3 (events : List Event) (s : State) : (filled s events).a3 = s.a3 := rfl
@[simp] theorem filled_a4 (events : List Event) (s : State) : (filled s events).a4 = s.a4 := rfl
@[simp] theorem filled_r0 (events : List Event) (s : State) : (filled s events).r0 = s.r0 := rfl
@[simp] theorem filled_created (events : List Event) (s : State) : (filled s events).created = s.created := rfl
@[simp] theorem filled_transport (events : List Event) (s : State) : (filled s events).transport = s.transport := rfl
@[simp] theorem filled_width (events : List Event) (s : State) : (filled s events).width = s.width := rfl
@[simp] theorem filled_height (events : List Event) (s : State) : (filled s events).height = s.height := rfl
@[simp] theorem filled_xstart (events : List Event) (s : State) : (filled s events).xstart = s.xstart := rfl
@[simp] theorem filled_ystart (events : List Event) (s : State) : (filled s events).ystart = s.ystart := rfl
@[simp] theorem filled_blDuty (events : List Event) (s : State) : (filled s events).blDuty = s.blDuty := rfl
@[simp] theorem filled_fault (events : List Event) (s : State) : (filled s events).fault = s.fault := rfl
@[simp] theorem filled_faultcode (events : List Event) (s : State) : (filled s events).faultcode = s.faultcode := rfl
@[simp] theorem filled_diag (events : List Event) (s : State) : (filled s events).diag = s.diag := rfl
@[simp] theorem filled_kpInit (events : List Event) (s : State) : (filled s events).kpInit = s.kpInit := rfl
@[simp] theorem filled_fbSel (events : List Event) (s : State) : (filled s events).fbSel = s.fbSel := rfl
@[simp] theorem filled_cs (events : List Event) (s : State) : (filled s events).cs = false := rfl
@[simp] theorem filled_dc (events : List Event) (s : State) : (filled s events).dc = true := rfl
@[simp] theorem filled_rst (events : List Event) (s : State) : (filled s events).rst = s.rst := rfl
@[simp] theorem filled_strobe (events : List Event) (s : State) : (filled s events).strobe = s.strobe := rfl
@[simp] theorem filled_pal (events : List Event) (s : State) : (filled s events).pal = s.pal := rfl
@[simp] theorem filled_lut (events : List Event) (s : State) : (filled s events).lut = s.lut := rfl
@[simp] theorem filled_fb0 (events : List Event) (s : State) : (filled s events).fb0 = s.fb0 := rfl
@[simp] theorem filled_fb1 (events : List Event) (s : State) : (filled s events).fb1 = s.fb1 := rfl
@[simp] theorem filled_xbuf (events : List Event) (s : State) : (filled s events).xbuf = s.xbuf := rfl
@[simp] theorem filled_rowbufGen (events : List Event) (s : State) : (filled s events).rowbufGen = s.rowbufGen := rfl
@[simp] theorem filled_stageGen (events : List Event) (s : State) : (filled s events).stageGen = s.stageGen + 1 := rfl
@[simp] theorem filled_scan (events : List Event) (s : State) : (filled s events).scan = s.scan := rfl
@[simp] theorem filled_out (events : List Event) (s : State) : (filled s events).out = s.out ++ events := rfl
@[simp] theorem filled_epoch (events : List Event) (s : State) : (filled s events).epoch = s.epoch := rfl
@[simp] theorem filled_levels (events : List Event) (s : State) : (filled s events).levels = s.levels := rfl
@[simp] theorem filled_pending (events : List Event) (s : State) : (filled s events).pending = s.pending := rfl
@[simp] theorem filled_answers (events : List Event) (s : State) : (filled s events).answers = s.answers := rfl

end Sys2Proof.Machine
end

