-- ==== Sys2Proof/Laws/Ops.lean ====
section
/-! SUPPORT. What each shared operation does, said once. On a transport that is not NULL a procedure that sends leaves
`sent s events`; on NULL it leaves the state as it is. -/

namespace Sys2Proof.Machine

variable (c : Cfg)

@[simp] theorem sent_sent (s : State) (e f : List Event) : sent (sent s e) f = sent s (e ++ f) := by
  simp only [sent, List.append_assoc]

theorem disturbStage_sent (s : State) (e : List Event) : disturbStage (sent s e) = filled s e := rfl

theorem disturbRowbuf_sent (s : State) (e : List Event) : disturbRowbuf (sent s e) = sent (disturbRowbuf s) e := rfl

theorem sent_filled (s : State) (e f : List Event) : sent (filled s e) f = filled s (e ++ f) := by
  simp only [sent, filled, List.append_assoc]

/-! ## The descriptor check and faults -/

theorem needPanel_created (body : State → State) (s : State) (h : s.created = true) : needPanel body s = body s := by
  simp [needPanel, h]

theorem needPanel_uncreated (body : State → State) (s : State) (h : s.created = false) :
    needPanel body s = raise .noPanel s := by
  simp [needPanel, h]

/-! ## Frames -/

/-- WriteCommand on a transport that is not NULL sends one frame (R121). -/
theorem writeCommand_sends (cmd : Byte) (data : Option (List Byte)) (s : State) (h : s.transport ≠ .null) :
    writeCommand c cmd data s = sent s (frameEvents c s.transport cmd data) := by
  simp only [writeCommand, if_neg h, sendCommandByte, frameEvents]
  cases data <;> split <;>
    simp [sendPayload, transportWrite, driveCs, driveDc, emit, sent]

/-- On NULL nothing is sent (R121, D13). -/
theorem writeCommand_null (cmd : Byte) (data : Option (List Byte)) (s : State) (h : s.transport = .null) :
    writeCommand c cmd data s = s := by
  simp [writeCommand, h]

/-! ## Windows -/

theorem addressWindow_sends (x0 y0 x1 y1 : Half) (s : State) (h : s.transport ≠ .null) :
    addressWindow c x0 y0 x1 y1 s = sent s (windowEvents c s x0 y0 x1 y1) := by
  simp only [addressWindow, addressPayload, writeCommand_sends c _ _ s h, windowEvents]
  rw [writeCommand_sends c _ _ _ (by simpa using h)]
  by_cases hs : s.transport = .serial
  · simp only [sent_transport, hs, if_true]
    rw [writeCommand_sends c _ _ _ (by simp [hs])]
    simp [hs]
  · simp [hs]

theorem addressWindow_null (x0 y0 x1 y1 : Half) (s : State) (h : s.transport = .null) :
    addressWindow c x0 y0 x1 y1 s = s := by
  simp [addressWindow, writeCommand_null, h]

/-- SetWindow, accepted (R124). -/
theorem setWindow_accepted (x0 y0 x1 y1 : Half) (s : State) (h : windowOk s x0 y0 x1 y1 = true) :
    setWindow c x0 y0 x1 y1 s = (true, addressWindow c x0 y0 x1 y1 s) := by
  simp [setWindow, h]

/-- SetWindow, rejected: nothing emitted, nothing changed (R124). -/
theorem setWindow_rejected (x0 y0 x1 y1 : Half) (s : State) (h : windowOk s x0 y0 x1 y1 = false) :
    setWindow c x0 y0 x1 y1 s = (false, s) := by
  simp [setWindow, h]

/-- The check in numbers: both corners on the panel and ordered. -/
theorem windowOk_iff (s : State) (x0 y0 x1 y1 : Half) :
    windowOk s x0 y0 x1 y1 = true ↔
      x0.toNat ≤ x1.toNat ∧ y0.toNat ≤ y1.toNat ∧ x1.toNat < s.width.toNat ∧ y1.toNat < s.height.toNat := by
  simp only [windowOk, Bool.not_eq_true', Bool.or_eq_false_iff, decide_eq_false_iff_not, BitVec.lt_def, BitVec.le_def,
    ge_iff_le, not_lt, not_le]
  omega

/-- The check reads nothing but the panel's size. -/
theorem windowOk_congr (s t : State) (hw : t.width = s.width) (hh : t.height = s.height) (x0 y0 x1 y1 : Half) :
    windowOk t x0 y0 x1 y1 = windowOk s x0 y0 x1 y1 := by
  simp [windowOk, hw, hh]

theorem windowEvents_congr (s t : State) (ht : t.transport = s.transport) (hx : t.xstart = s.xstart)
    (hy : t.ystart = s.ystart) (x0 y0 x1 y1 : Half) : windowEvents c t x0 y0 x1 y1 = windowEvents c s x0 y0 x1 y1 := by
  simp [windowEvents, ht, hx, hy]

/-! ## Pieces and fills -/

theorem rawWrite_sends (bytes : List Byte) (first : Bool) (s : State) (h : s.transport ≠ .null) :
    rawWrite c bytes first s = sent s (pieceEvents c s.transport first bytes) := by
  simp only [rawWrite, pieceEvents]
  split <;> rw [writeCommand_sends c _ _ s h]

theorem rawWrite_null (bytes : List Byte) (first : Bool) (s : State) (h : s.transport = .null) :
    rawWrite c bytes first s = s := by
  simp [rawWrite, writeCommand_null, h]

theorem sendChunks_sends (color : Half) (sizes : List Nat) (first : Bool) (s : State) (e : List Event)
    (h : s.transport ≠ .null) :
    sendChunks c color first sizes (sent s e) = sent s (e ++ chunkEvents c s.transport color first sizes) := by
  induction sizes generalizing first e with
  | nil => simp [sendChunks, chunkEvents]
  | cons n rest ih =>
    rw [sendChunks, rawWrite_sends c _ _ _ (by simpa using h), sent_sent, sent_transport, ih, chunkEvents,
      List.append_assoc]

theorem sendChunks_null (color : Half) (sizes : List Nat) (first : Bool) (s : State) (h : s.transport = .null) :
    sendChunks c color first sizes s = s := by
  induction sizes generalizing first with
  | nil => rfl
  | cons n rest ih => rw [sendChunks, rawWrite_null c _ _ _ h, ih]

/-- FillWindow, rejected: nothing at all (R161). -/
theorem fillWindow_rejected (x0 y0 x1 y1 : Half) (count : Nat) (color : Half) (s : State)
    (h : windowOk s x0 y0 x1 y1 = false) : fillWindow c x0 y0 x1 y1 count color s = s := by
  simp [fillWindow, setWindow_rejected c _ _ _ _ _ h]

/-- FillWindow, accepted, on a transport that is not NULL (R161). -/
theorem fillWindow_accepted (x0 y0 x1 y1 : Half) (count : Nat) (color : Half) (s : State)
    (h : windowOk s x0 y0 x1 y1 = true) (ht : s.transport ≠ .null) :
    fillWindow c x0 y0 x1 y1 count color s = filled s (fillEvents c s x0 y0 x1 y1 count color) := by
  simp only [fillWindow, setWindow_accepted c _ _ _ _ _ h, addressWindow_sends c _ _ _ _ _ ht]
  rw [sendChunks_sends c _ _ _ _ _ ht, disturbStage_sent, fillEvents]

/-- FillWindow, accepted, on NULL: only STAGE is disturbed. -/
theorem fillWindow_null (x0 y0 x1 y1 : Half) (count : Nat) (color : Half) (s : State)
    (h : windowOk s x0 y0 x1 y1 = true) (ht : s.transport = .null) :
    fillWindow c x0 y0 x1 y1 count color s = disturbStage s := by
  simp only [fillWindow, setWindow_accepted c _ _ _ _ _ h, addressWindow_null c _ _ _ _ _ ht]
  rw [sendChunks_null c _ _ _ _ ht]

end Sys2Proof.Machine
end

