-- ==== Sys2Proof/Laws/Drawing.lean ====
section
/-! SUPPORT. What drawing appends to OUT and what else it changes, said once for a fill, a line's run and a line's runs
(spec/42_primitive_drawing.md). -/

namespace Sys2Proof.Machine

/-- From `s` to `t` the events `ev` were sent, and nothing else changed but the two panel pins and the transient
buffers. -/
structure Drew (s t : State) (ev : List Event) : Prop where
  out : t.out = s.out ++ ev
  pins : ev ≠ [] → t.cs = false ∧ t.dc = true
  quiet : ev = [] → t.cs = s.cs ∧ t.dc = s.dc
  frame : t =
    { s with cs := t.cs, dc := t.dc, out := t.out, rowbufGen := t.rowbufGen, stageGen := t.stageGen }

theorem Drew.nothing (s : State) : Drew s s [] := ⟨by simp, fun h => absurd rfl h, fun _ => ⟨rfl, rfl⟩, rfl⟩

theorem Drew.trans {s t u : State} {e f : List Event} (h : Drew s t e) (g : Drew t u f) : Drew s u (e ++ f) where
  out := by rw [g.out, h.out, List.append_assoc]
  pins := by
    intro hne
    by_cases hf : f = []
    · subst hf
      rw [List.append_nil] at hne
      rw [(g.quiet rfl).1, (g.quiet rfl).2]
      exact h.pins hne
    · exact g.pins hf
  quiet := by
    intro he
    obtain ⟨rfl, rfl⟩ := List.append_eq_nil_iff.1 he
    exact ⟨(g.quiet rfl).1.trans (h.quiet rfl).1, (g.quiet rfl).2.trans (h.quiet rfl).2⟩
  frame := by rw [g.frame, h.frame]

/-- What was sent is what OUT grew by. -/
theorem Drew.grew {s t : State} {ev : List Event} (h : Drew s t ev) : t.out = s.out ↔ ev = [] := by
  rw [h.out]
  simp

theorem drew_sent (s : State) {ev : List Event} (h : ev ≠ []) : Drew s (sent s ev) ev :=
  ⟨rfl, fun _ => ⟨rfl, rfl⟩, fun he => absurd he h, rfl⟩

theorem drew_filled (s : State) {ev : List Event} (h : ev ≠ []) : Drew s (filled s ev) ev :=
  ⟨rfl, fun _ => ⟨rfl, rfl⟩, fun he => absurd he h, rfl⟩

theorem fillEvents_ne_nil (c : Cfg) (s : State) (x0 y0 x1 y1 : Half) (count : Nat) (color : Half) :
    fillEvents c s x0 y0 x1 y1 count color ≠ [] := by
  simp [fillEvents, windowEvents, frameEvents]

/-- FillWindow in one equation (R161). -/
theorem fillWindow_eq (c : Cfg) (x0 y0 x1 y1 : Half) (count : Nat) (color : Half) (s : State) :
    fillWindow c x0 y0 x1 y1 count color s
      = if windowOk s x0 y0 x1 y1 then drawn c s x0 y0 x1 y1 count color else s := by
  by_cases h : windowOk s x0 y0 x1 y1 = true
  · rw [if_pos h, drawn]
    by_cases ht : s.transport = .null
    · rw [if_pos ht, fillWindow_null _ _ _ _ _ _ _ _ h ht]
    · rw [if_neg ht, fillWindow_accepted _ _ _ _ _ _ _ _ h ht]
  · rw [if_neg h, fillWindow_rejected _ _ _ _ _ _ _ _ (Bool.eq_false_iff.2 h)]

/-- The end of a run of `n` from `x`: at or after its start and below `limit` exactly when the run is not empty and fits,
wrapped ends included (R162, R163). -/
theorem run_fits (x n limit : Half) :
    x.toNat ≤ (x + n - 1).toNat ∧ (x + n - 1).toNat < limit.toNat ↔ 1 ≤ n.toNat ∧ x.toNat + n.toNat ≤ limit.toNat := by
  have := x.isLt
  have := n.isLt
  have := limit.isLt
  simp only [BitVec.toNat_sub, BitVec.toNat_add]
  simp
  omega

/-- A fill, accepted or not, on any transport. -/
theorem drew_fillWindow (c : Cfg) (x0 y0 x1 y1 : Half) (count : Nat) (color : Half) (s : State) :
    Drew s (fillWindow c x0 y0 x1 y1 count color s)
        (if s.transport = .null then []
          else if windowOk s x0 y0 x1 y1 then fillEvents c s x0 y0 x1 y1 count color else [])
      ∧ (fillWindow c x0 y0 x1 y1 count color s).rowbufGen = s.rowbufGen := by
  rw [fillWindow_eq, drawn]
  by_cases hn : s.transport = .null
  · rw [if_pos hn, if_pos hn]
    split
    · exact ⟨⟨(List.append_nil _).symm, fun h => absurd rfl h, fun _ => ⟨rfl, rfl⟩, rfl⟩, rfl⟩
    · exact ⟨Drew.nothing s, rfl⟩
  · rw [if_neg hn, if_neg hn]
    split
    · exact ⟨drew_filled s (fillEvents_ne_nil c s x0 y0 x1 y1 count color), rfl⟩
    · exact ⟨Drew.nothing s, rfl⟩

/-- One run of a line (R171). -/
theorem drew_emitRun (c : Cfg) (steep : Bool) (color : Half) (r : Run) (s : State) :
    Drew s (emitRun c steep color r s) (if s.transport = .null then [] else runEvents c s steep color r)
      ∧ (emitRun c steep color r s).rowbufGen = s.rowbufGen := by
  cases steep
  · exact drew_fillWindow ..
  · exact drew_fillWindow ..

/-- The runs of a line, each accepted or rejected on its own (R171). -/
theorem drew_emitRuns (c : Cfg) (steep : Bool) (color : Half) (runs : List Run) (s : State) :
    Drew s (emitRuns c steep color runs s)
        (if s.transport = .null then [] else runs.flatMap (runEvents c s steep color))
      ∧ (emitRuns c steep color runs s).rowbufGen = s.rowbufGen := by
  induction runs generalizing s with
  | nil => exact ⟨by simpa [emitRuns] using Drew.nothing s, rfl⟩
  | cons r rest ih =>
    obtain ⟨h, hg⟩ := drew_emitRun c steep color r s
    obtain ⟨g, gg⟩ := ih (emitRun c steep color r s)
    have e : rest.flatMap (runEvents c (emitRun c steep color r s) steep color)
        = rest.flatMap (runEvents c s steep color) := List.flatMap_congr fun j _ => by rw [h.frame]; rfl
    have et : (emitRun c steep color r s).transport = s.transport := by rw [h.frame]
    rw [e, et] at g
    refine ⟨?_, gg.trans hg⟩
    have := h.trans g
    rw [emitRuns]
    split at this
    · next hn => rw [if_pos hn]; exact this
    · next hn => rw [if_neg hn, List.flatMap_cons]; exact this

/-- Exchanging the endpoints of a line changes neither its slope class nor its runs (R170, R172 (c)). -/
theorem lineSteep_swap (x0 y0 x1 y1 : Int) : lineSteep x1 y1 x0 y0 = lineSteep x0 y0 x1 y1 := by
  unfold lineSteep
  congr 1
  rw [eq_iff_iff]
  omega

theorem lineRunsMajor_swap (x0 y0 x1 y1 : Int) (h : (y1 - y0).natAbs ≤ (x1 - x0).natAbs) :
    lineRunsMajor x1 y1 x0 y0 = lineRunsMajor x0 y0 x1 y1 := by
  unfold lineRunsMajor
  by_cases h1 : x0 < x1
  · rw [if_pos (by omega), if_neg (by omega)]
  · by_cases h2 : x1 < x0
    · rw [if_neg (by omega), if_pos (by omega)]
    · have e : x0 = x1 := by omega
      have e2 : y0 = y1 := by omega
      rw [e, e2]

theorem lineRuns_swap (x0 y0 x1 y1 : Int) : lineRuns x1 y1 x0 y0 = lineRuns x0 y0 x1 y1 := by
  unfold lineRuns
  rw [lineSteep_swap]
  by_cases h : lineSteep x0 y0 x1 y1 = true
  · rw [if_pos h, if_pos h, lineRunsMajor_swap]
    simp [lineSteep] at h
    omega
  · rw [if_neg h, if_neg h, lineRunsMajor_swap]
    simp [lineSteep] at h
    omega

end Sys2Proof.Machine
end

