-- ==== Sys2Proof/Laws/Effects.lean ====
section
/-! SUPPORT. What an operation of the display can do, said once: it appends display events to OUT, moves the panel pins,
the backlight duty and the transient buffers, and does so in the same way whatever the keypad state and OUT are. -/

namespace Sys2Proof.Machine

variable (c : Cfg)

/-- The events of the display units: every event but those of the Keypad Scanner (spec/10_state.md R40). -/
def displayEvent : Event → Bool
  | .strobe _ | .kpcfg | .key _ _ | .delayUs _ => false
  | _ => true

/-- `s` with other keypad state and another OUT. -/
def overlay (s : State) (scan : KeyMatrix) (strobe : BitVec 2) (kpInit : Bool) (out : List Event) : State :=
  { s with scan := scan, strobe := strobe, kpInit := kpInit, out := out }

/-- From `s` to `t` the block appended `ev` to OUT and changed nothing but panel pins, the duty and transient buffers. -/
structure Sends (s t : State) (ev : List Event) : Prop where
  events : ∀ e ∈ ev, displayEvent e = true
  frame : t =
    { s with
      cs := t.cs, dc := t.dc, rst := t.rst, blDuty := t.blDuty, rowbufGen := t.rowbufGen, stageGen := t.stageGen
      out := s.out ++ ev }
  cs : t.cs = s.cs ∨ t.cs = false
  quiet : ev = [] → t.cs = s.cs ∧ t.dc = s.dc ∧ t.rst = s.rst ∧ t.blDuty = s.blDuty
  null : s.transport = .null → ev = []

theorem Sends.refl (s : State) : Sends s s [] :=
  ⟨by simp, by simp, .inl rfl, fun _ => ⟨rfl, rfl, rfl, rfl⟩, fun _ => rfl⟩

theorem Sends.transport {s t : State} {ev : List Event} (h : Sends s t ev) : t.transport = s.transport := by
  rw [h.frame]

theorem Sends.trans {s t u : State} {e f : List Event} (h : Sends s t e) (g : Sends t u f) : Sends s u (e ++ f) where
  events := by
    intro x hx
    rcases List.mem_append.1 hx with hx | hx
    · exact h.events x hx
    · exact g.events x hx
  frame := by
    have hg := g.frame
    rw [h.frame] at hg
    simpa [List.append_assoc] using hg
  cs := by
    rcases g.cs with hg | hg
    · rw [hg]; exact h.cs
    · exact .inr hg
  quiet := by
    intro he
    obtain ⟨rfl, rfl⟩ := List.append_eq_nil_iff.1 he
    obtain ⟨a1, a2, a3, a4⟩ := h.quiet rfl
    obtain ⟨b1, b2, b3, b4⟩ := g.quiet rfl
    exact ⟨b1.trans a1, b2.trans a2, b3.trans a3, b4.trans a4⟩
  null := fun hn => by simp [h.null hn, g.null (h.transport.trans hn)]

/-- `f` sends from `s`, and in the same way from any overlay of `s`. -/
def Moves (f : State → State) (s : State) : Prop :=
  ∃ ev, Sends s (f s) ev ∧ ∀ scan strobe kpInit out,
    f (overlay s scan strobe kpInit out) = overlay (f s) scan strobe kpInit (out ++ ev)

theorem Moves.id (s : State) : Moves (fun s => s) s := ⟨[], Sends.refl s, fun _ _ _ _ => by simp⟩

theorem Moves.comp {f g : State → State} {s : State} (hf : Moves f s) (hg : Moves g (f s)) :
    Moves (fun s => g (f s)) s := by
  obtain ⟨e, h1, h2⟩ := hf
  obtain ⟨e', h3, h4⟩ := hg
  exact ⟨e ++ e', h1.trans h3, fun _ _ _ _ => by
    show g (f _) = overlay (g (f s)) _ _ _ _
    rw [h2, h4, List.append_assoc]⟩

/-- Two functions that agree on `s` and its overlays move alike. -/
theorem Moves.congr {f g : State → State} {s : State} (h : Moves f s) (h0 : g s = f s)
    (h1 : ∀ scan strobe kpInit out, g (overlay s scan strobe kpInit out) = f (overlay s scan strobe kpInit out)) :
    Moves g s := by
  obtain ⟨e, h2, h3⟩ := h
  exact ⟨e, h0 ▸ h2, fun _ _ _ _ => by rw [h1, h3, h0]⟩

/-- A function that sends the same events from `s` and from its overlays, and nothing on NULL. -/
theorem Moves.of_sent {f : State → State} {s : State} (ev : List Event) (hev : ∀ e ∈ ev, displayEvent e = true)
    (hne : ev ≠ []) (hs : s.transport ≠ .null) (h0 : f s = sent s ev)
    (h1 : ∀ scan strobe kpInit out,
      f (overlay s scan strobe kpInit out) = sent (overlay s scan strobe kpInit out) ev) : Moves f s := by
  refine ⟨ev, ⟨hev, ?_, ?_, ?_, fun h => absurd h hs⟩, fun _ _ _ _ => ?_⟩
  · rw [h0]; rfl
  · rw [h0]; exact .inr rfl
  · exact fun h => absurd h hne
  · rw [h0, h1]; rfl

/-! ## The shared operations -/

theorem frameEvents_display (t : Transport) (cmd : Byte) (data : Option (List Byte)) :
    ∀ e ∈ frameEvents c t cmd data, displayEvent e = true := by
  cases data <;> simp only [frameEvents] <;> split <;> simp [displayEvent]

theorem frameEvents_ne_nil (t : Transport) (cmd : Byte) (data : Option (List Byte)) : frameEvents c t cmd data ≠ [] := by
  simp [frameEvents]

theorem moves_writeCommand (cmd : Byte) (data : Option (List Byte)) (s : State) : Moves (writeCommand c cmd data) s := by
  by_cases h : s.transport = .null
  · exact (Moves.id s).congr (writeCommand_null c _ _ s h) fun _ _ _ _ => writeCommand_null c _ _ _ h
  · exact .of_sent _ (frameEvents_display c s.transport cmd data) (frameEvents_ne_nil c _ _ _) h
      (writeCommand_sends c _ _ s h) fun _ _ _ _ => writeCommand_sends c _ _ _ h

theorem windowEvents_display (s : State) (x0 y0 x1 y1 : Half) :
    ∀ e ∈ windowEvents c s x0 y0 x1 y1, displayEvent e = true := by
  intro e he
  simp only [windowEvents, List.mem_append] at he
  rcases he with (he | he) | he
  · exact frameEvents_display c _ _ _ e he
  · exact frameEvents_display c _ _ _ e he
  · split at he
    · exact frameEvents_display c _ _ _ e he
    · simp at he

theorem windowEvents_ne_nil (s : State) (x0 y0 x1 y1 : Half) : windowEvents c s x0 y0 x1 y1 ≠ [] := by
  simp [windowEvents, frameEvents_ne_nil]

theorem moves_addressWindow (x0 y0 x1 y1 : Half) (s : State) : Moves (addressWindow c x0 y0 x1 y1) s := by
  by_cases h : s.transport = .null
  · exact (Moves.id s).congr (addressWindow_null c _ _ _ _ s h) fun _ _ _ _ => addressWindow_null c _ _ _ _ _ h
  · exact .of_sent _ (windowEvents_display c s x0 y0 x1 y1) (windowEvents_ne_nil c _ _ _ _ _) h
      (addressWindow_sends c _ _ _ _ s h) fun _ _ _ _ => addressWindow_sends c _ _ _ _ _ h

theorem moves_setWindow (x0 y0 x1 y1 : Half) (s : State) : Moves (fun s => (setWindow c x0 y0 x1 y1 s).2) s := by
  by_cases h : windowOk s x0 y0 x1 y1 = true
  · refine (moves_addressWindow c x0 y0 x1 y1 s).congr ?_ fun k st kp o => ?_
    · rw [setWindow_accepted c _ _ _ _ _ h]
    · rw [setWindow_accepted c _ _ _ _ (overlay s k st kp o) h]
  · have h := Bool.eq_false_iff.2 h
    refine (Moves.id s).congr ?_ fun k st kp o => ?_
    · rw [setWindow_rejected c _ _ _ _ _ h]
    · rw [setWindow_rejected c _ _ _ _ (overlay s k st kp o) h]

theorem moves_rawWrite (bytes : List Byte) (first : Bool) (s : State) : Moves (rawWrite c bytes first) s := by
  by_cases h : s.transport = .parallel ∧ first = true
  · exact (moves_writeCommand c 0x2C (some bytes) s).congr (by simp [rawWrite, h]) fun _ _ _ _ => by
      simp [rawWrite, overlay, h]
  · exact (moves_writeCommand c 0 (some bytes) s).congr (by simp only [rawWrite, if_neg h]) fun _ _ _ _ => by
      simp only [rawWrite]; rw [if_neg]; simpa [overlay] using h

theorem moves_disturbStage (s : State) : Moves disturbStage s :=
  ⟨[], ⟨by simp, by simp [disturbStage], .inl rfl, fun _ => ⟨rfl, rfl, rfl, rfl⟩, fun _ => rfl⟩,
    fun _ _ _ _ => by simp [disturbStage, overlay]⟩

theorem moves_disturbRowbuf (s : State) : Moves disturbRowbuf s :=
  ⟨[], ⟨by simp, by simp [disturbRowbuf], .inl rfl, fun _ => ⟨rfl, rfl, rfl, rfl⟩, fun _ => rfl⟩,
    fun _ _ _ _ => by simp [disturbRowbuf, overlay]⟩

theorem moves_sendChunks (color : Half) (first : Bool) (sizes : List Nat) (s : State) :
    Moves (sendChunks c color first sizes) s := by
  induction sizes generalizing first s with
  | nil => exact Moves.id s
  | cons n rest ih => exact (moves_rawWrite c _ _ s).comp (ih false _)

theorem moves_fillWindow (x0 y0 x1 y1 : Half) (count : Nat) (color : Half) (s : State) :
    Moves (fillWindow c x0 y0 x1 y1 count color) s := by
  by_cases h : windowOk s x0 y0 x1 y1 = true
  · refine (((moves_addressWindow c x0 y0 x1 y1 s).comp (moves_sendChunks c color true (chunkSizes count) _)).comp
      (moves_disturbStage _)).congr ?_ fun k st kp o => ?_
    · simp only [fillWindow, setWindow_accepted c _ _ _ _ _ h]
    · simp only [fillWindow]
      rw [setWindow_accepted c _ _ _ _ (overlay s k st kp o) h]
  · have h := Bool.eq_false_iff.2 h
    refine (Moves.id s).congr ?_ fun _ _ _ _ => ?_
    · exact fillWindow_rejected c _ _ _ _ _ _ _ h
    · exact fillWindow_rejected c _ _ _ _ _ _ _ h

theorem moves_emitRun (steep : Bool) (color : Half) (r : Run) (s : State) : Moves (emitRun c steep color r) s := by
  cases steep
  · exact moves_fillWindow c _ _ _ _ _ _ s
  · exact moves_fillWindow c _ _ _ _ _ _ s

theorem moves_emitRuns (steep : Bool) (color : Half) (runs : List Run) (s : State) :
    Moves (emitRuns c steep color runs) s := by
  induction runs generalizing s with
  | nil => exact Moves.id s
  | cons r rest ih => exact (moves_emitRun c steep color r s).comp (ih _)

/-! ## INIT -/

theorem moves_emit (e : Event) (he : displayEvent e = true) (s : State) (h : s.transport ≠ .null) : Moves (emit e) s :=
  ⟨[e], ⟨by simpa using he, rfl, .inl rfl, fun h => by simp at h, fun hn => absurd hn h⟩, fun _ _ _ _ => rfl⟩

theorem moves_driveRst (v : Bool) (s : State) (h : s.transport ≠ .null) : Moves (driveRst v) s :=
  ⟨[.rst v], ⟨by simp [displayEvent], rfl, .inl rfl, fun h => by simp at h, fun hn => absurd hn h⟩, fun _ _ _ _ => rfl⟩

theorem moves_delayMs (n : Nat) (s : State) (h : s.transport ≠ .null) : Moves (delayMs n) s := moves_emit _ rfl s h

/-- A move keeps the transport. -/
theorem Moves.transport {f : State → State} {s : State} (h : Moves f s) : (f s).transport = s.transport := by
  obtain ⟨_, h, _⟩ := h
  exact h.transport

theorem moves_initStep (cmd : Byte) (data : Option (List Byte)) (ms : Nat) (s : State) (h : s.transport ≠ .null) :
    Moves (initStep c cmd data ms) s :=
  (moves_writeCommand c cmd data s).comp (moves_delayMs ms _ (by rwa [(moves_writeCommand c cmd data s).transport]))

theorem hardReset_eq (s : State) :
    hardReset c s =
      { s with
        rst := true
        out := s.out ++ [.rst false, .rst true, .delayMs c.tRst1Ms, .rst false, .delayMs c.tRst2Ms, .rst true,
          .delayMs c.tRst3Ms] } := by
  simp [hardReset, driveRst, delayMs, emit]

theorem moves_hardReset (s : State) (h : s.transport ≠ .null) : Moves (hardReset c) s := by
  refine ⟨[.rst false, .rst true, .delayMs c.tRst1Ms, .rst false, .delayMs c.tRst2Ms, .rst true, .delayMs c.tRst3Ms],
    ⟨by simp [displayEvent], ?_, ?_, fun h => by simp at h, fun hn => absurd hn h⟩, fun _ _ _ _ => ?_⟩
  · rw [hardReset_eq]
  · exact .inl (by rw [hardReset_eq])
  · rw [hardReset_eq, hardReset_eq]; rfl

/-- The part of INIT up to the fill, and the part after it. -/
def initModes (s : State) : State :=
  let s := if c.hasRst then hardReset c s else s
  let s := initStep c 0x01 none tSwresetMs s
  let s := initStep c 0x11 none c.tSlpoutMs s
  let s := initStep c 0x3A (some [c.colmodValue]) c.tColmodMs s
  let s := initStep c 0x36 (some [c.madctlValue]) c.tMadctlMs s
  let s := initStep c 0x21 none c.tInvonMs s
  initStep c 0x13 none c.tNoronMs s

def initTail (s : State) : State := initStep c 0x29 none c.tDisponMs (delayMs c.tFillMs s)

theorem initSequence_eq (s : State) :
    initSequence c s = initTail c (fillWindow c 0 0 ((initModes c s).width - 1) ((initModes c s).height - 1)
      ((initModes c s).width.toNat * (initModes c s).height.toNat) 0 (initModes c s)) := rfl

theorem moves_initModes (s : State) (h : s.transport ≠ .null) : Moves (initModes c) s := by
  have h0 : Moves (fun s => if c.hasRst then hardReset c s else s) s := by
    by_cases hr : c.hasRst = true
    · simpa only [hr, if_true] using moves_hardReset c s h
    · exact (Moves.id s).congr (by simp [hr]) fun _ _ _ _ => by simp [hr]
  have step : ∀ {f : State → State} (cmd : Byte) (data : Option (List Byte)) (ms : Nat), Moves f s →
      Moves (fun s => initStep c cmd data ms (f s)) s := fun cmd data ms hf =>
    hf.comp (moves_initStep c cmd data ms _ (by rwa [hf.transport]))
  exact step _ _ _ (step _ _ _ (step _ _ _ (step _ _ _ (step _ _ _ (step _ _ _ h0)))))

theorem moves_initTail (s : State) (h : s.transport ≠ .null) : Moves (initTail c) s :=
  (moves_delayMs c.tFillMs s h).comp (moves_initStep c 0x29 none c.tDisponMs _ (by simpa using h))

/-- A move keeps the size of the panel. -/
theorem Moves.size {f : State → State} {s : State} (h : Moves f s) : (f s).width = s.width ∧ (f s).height = s.height := by
  obtain ⟨_, h, _⟩ := h
  rw [h.frame]
  exact ⟨rfl, rfl⟩

theorem moves_initSequence (s : State) (h : s.transport ≠ .null) : Moves (initSequence c) s := by
  have h1 := moves_initModes c s h
  have h2 := h1.comp (moves_fillWindow c 0 0 (s.width - 1) (s.height - 1) (s.width.toNat * s.height.toNat) 0 _)
  refine (h2.comp (moves_initTail c _ (by rwa [h2.transport]))).congr ?_ fun k st kp o => ?_
  · rw [initSequence_eq, h1.size.1, h1.size.2]
  · rw [initSequence_eq]
    have h3 := (moves_initModes c (overlay s k st kp o) h).size
    rw [h3.1, h3.2]
    rfl

/-! ## Blit -/

theorem moves_blitRow (buf n xoff yoff r : Nat) (s : State) : Moves (fun s => blitRow c buf n xoff yoff s r) s := by
  by_cases h : windowOk s (BitVec.ofNat 16 xoff) (BitVec.ofNat 16 (yoff + r))
      (BitVec.ofNat 16 xoff + BitVec.ofNat 16 n - 1) (BitVec.ofNat 16 (yoff + r)) = true
  · refine (((moves_disturbRowbuf s).comp (moves_addressWindow c (BitVec.ofNat 16 xoff) (BitVec.ofNat 16 (yoff + r))
      (BitVec.ofNat 16 xoff + BitVec.ofNat 16 n - 1) (BitVec.ofNat 16 (yoff + r)) _)).comp
      (moves_rawWrite c (rowBytes (rowCells s buf n r)) true _)).congr ?_ fun k st kp o => ?_
    · simp only [blitRow]
      rw [setWindow_accepted c _ _ _ _ (disturbRowbuf s) h]
    · simp only [blitRow]
      rw [setWindow_accepted c _ _ _ _ (disturbRowbuf (overlay s k st kp o)) h]
      rfl
  · have h := Bool.eq_false_iff.2 h
    refine (moves_disturbRowbuf s).congr ?_ fun k st kp o => ?_
    · simp only [blitRow]
      rw [setWindow_rejected c _ _ _ _ (disturbRowbuf s) h]
    · simp only [blitRow]
      rw [setWindow_rejected c _ _ _ _ (disturbRowbuf (overlay s k st kp o)) h]

theorem moves_blitRows (buf n height xoff yoff : Nat) (s : State) :
    Moves (blitRows c buf n height xoff yoff) s := by
  suffices ∀ (rows : List Nat) (s : State), Moves (fun s => rows.foldl (blitRow c buf n xoff yoff) s) s from
    this (List.range height) s
  intro rows
  induction rows with
  | nil => exact Moves.id
  | cons r rest ih => exact fun s => (moves_blitRow c buf n xoff yoff r s).comp (ih _)

end Sys2Proof.Machine
end

