-- ==== Sys2Proof/Laws/Blit.lean ====
section
/-! SUPPORT. What the Frame Blit Pipeline does, said once: LUT and the buffer flag, and otherwise moves of the display. -/

namespace Sys2Proof.Machine

/-- `s` with LUT and the buffer flag as FINISH_UPDATE leaves them (R192, R206). -/
def blitBase (c : Cfg) (s : State) : State :=
  { convertPalette s with fbSel := if c.buffering = .double then !s.fbSel else s.fbSel }

theorem toggleBuffers_eq (c : Cfg) (s : State) :
    toggleBuffers c s = { s with fbSel := if c.buffering = .double then !s.fbSel else s.fbSel } := by
  unfold toggleBuffers
  cases c.buffering <;> rfl

/-- FINISH_UPDATE's frame (R200): LUT and the buffer flag, then moves, the same whatever the keypad and OUT are. -/
theorem blitFrame_sends (c : Cfg) (buf n height : Nat) (s : State) :
    ∃ ev, Sends (blitBase c s) (blitFrame c buf n height s) ev ∧ ∀ scan strobe kpInit out,
      blitFrame c buf n height (overlay s scan strobe kpInit out)
        = overlay (blitFrame c buf n height s) scan strobe kpInit (out ++ ev) := by
  obtain ⟨ev, h, ho⟩ :=
    moves_blitRows c buf n height (centre s.width.toNat n) (centre s.height.toNat height) (convertPalette s)
  have hf := congrArg State.fbSel h.frame
  have e : ∀ t, blitFrame c buf n height t = toggleBuffers c (blitRows c buf n height (centre t.width.toNat n)
      (centre t.height.toNat height) (convertPalette t)) := fun _ => rfl
  refine ⟨ev, ⟨h.events, ?_, ?_, ?_, h.null⟩, fun k st kp o => ?_⟩
  · rw [e, toggleBuffers_eq, hf]
    conv_lhs => rw [h.frame]
    rfl
  · rw [e, toggleBuffers_eq]
    exact h.cs
  · rw [e, toggleBuffers_eq]
    exact h.quiet
  · have hov : blitRows c buf n height (centre s.width.toNat n) (centre s.height.toNat height)
        (convertPalette (overlay s k st kp o)) = _ := ho k st kp o
    rw [e, e]
    refine (congrArg (toggleBuffers c) hov).trans ?_
    rw [toggleBuffers_eq, toggleBuffers_eq]
    rfl

/-! ## LUT (spec/43_pixel_converter.md) -/

/-- After ConvertPalette every LUT cell holds the stored value of its palette entry (R192). -/
theorem lutCell_convertPalette (s : State) (i : Nat) (h : i < 256) : lutCell (convertPalette s) i = storedEntry s i := by
  unfold lutCell convertPalette
  rw [List.range_eq_range', Mem.get?_listing, if_pos ⟨Nat.zero_le i, by simpa [palEntries] using h⟩]
  rfl

/-- What a cell puts on the wire is the natural value, high byte first (R191, spec/20_memory.md R66). -/
theorem le16_stored (r g b : Byte) : le16 (stored r g b) = be16 (rgb565 r g b) := le16_swap16 _

/-- The order of a cell's two index bytes (R202). -/
theorem indexByte_eq (s : State) (buf j : Nat) : indexByte s buf j = frameIndex s buf j := rfl

/-- The centring offset (R203). -/
theorem centre_eq (panel frame : Nat) : centre panel frame = frameOffset panel frame := rfl

/-- The events of a row, with the offsets as the blit computes them. -/
theorem rowEvents_centre (c : Cfg) (s : State) (buf n height r : Nat) :
    rowEvents c s buf n height r
      = if 1 ≤ n ∧ n ≤ s.width.toNat ∧ centre s.height.toNat height + r < s.height.toNat then
          windowEvents c s (BitVec.ofNat 16 (centre s.width.toNat n)) (BitVec.ofNat 16 (centre s.height.toNat height + r))
              (BitVec.ofNat 16 (centre s.width.toNat n + n - 1)) (BitVec.ofNat 16 (centre s.height.toNat height + r))
            ++ pieceEvents c s.transport true (rowWireBytes s buf n r)
        else [] := rfl

/-- A row as it goes to the wire, for a state with LUT as ConvertPalette left it. -/
theorem rowBytes_rowCells (s t : State) (buf n r : Nat) (hl : ∀ i, i < 256 → lutCell t i = storedEntry s i)
    (hf : ∀ j, indexByte t buf j = indexByte s buf j) : rowBytes (rowCells t buf n r) = rowWireBytes s buf n r := by
  unfold rowBytes rowCells rowWireBytes lookupPixel naturalEntry
  rw [List.map_map]
  congr 1
  refine List.map_congr_left fun k _ => ?_
  simp only [Function.comp]
  rw [hf, hl _ (indexByte s buf (r * n + k)).isLt, storedEntry, le16_stored, indexByte_eq]

/-! ## Rows (spec/44_frame_blit.md R200, R203) -/

theorem centre_fits (panel frame : Nat) (h : frame ≤ panel) : centre panel frame + frame ≤ panel := by
  unfold centre
  split <;> omega

theorem centre_of_le (panel frame : Nat) (h : panel ≤ frame) : centre panel frame = 0 := by
  unfold centre
  split <;> omega

theorem ofNat_run_end (x n : Nat) (h : 1 ≤ n) :
    (BitVec.ofNat 16 x + BitVec.ofNat 16 n - 1 : Half) = BitVec.ofNat 16 (x + n - 1) := by
  apply BitVec.eq_of_toNat_eq
  simp
  omega

/-- The window of a row is accepted exactly when the row is not empty, not wider than the panel and not below it. -/
theorem row_windowOk (s : State) (n height r : Nat) (hn : n ≤ 65535) (hh : height ≤ 65535) (hr : r < height) :
    windowOk s (BitVec.ofNat 16 (centre s.width.toNat n)) (BitVec.ofNat 16 (centre s.height.toNat height + r))
        (BitVec.ofNat 16 (centre s.width.toNat n) + BitVec.ofNat 16 n - 1)
        (BitVec.ofNat 16 (centre s.height.toNat height + r)) = true
      ↔ 1 ≤ n ∧ n ≤ s.width.toNat ∧ centre s.height.toNat height + r < s.height.toNat := by
  rw [windowOk_iff]
  have := s.width.isLt
  have := s.height.isLt
  have := centre_fits s.width.toNat n
  have := centre_of_le s.width.toNat n
  have := centre_fits s.height.toNat height
  have := centre_of_le s.height.toNat height
  by_cases h1 : 1 ≤ n
  · rw [ofNat_run_end _ _ h1]
    simp only [BitVec.toNat_ofNat]
    omega
  · have : n = 0 := by omega
    subst this
    simp only [BitVec.toNat_ofNat, BitVec.toNat_sub, BitVec.toNat_add]
    simp
    omega

/-- What a row reads of the state of the frame it belongs to: LUT as converted, the framebuffer, the panel. -/
structure SameFrame (s0 s : State) (buf : Nat) : Prop where
  lut : ∀ i, i < 256 → lutCell s i = storedEntry s0 i
  fb : ∀ j, indexByte s buf j = indexByte s0 buf j
  panel : s.transport = s0.transport ∧ s.width = s0.width ∧ s.height = s0.height ∧ s.xstart = s0.xstart
    ∧ s.ystart = s0.ystart

theorem sameFrame_convertPalette (s : State) (buf : Nat) : SameFrame s (convertPalette s) buf :=
  ⟨fun i h => lutCell_convertPalette s i h, fun _ => rfl, ⟨rfl, rfl, rfl, rfl, rfl⟩⟩

theorem Drew.sameFrame {s0 s t : State} {buf : Nat} {ev : List Event} (h : SameFrame s0 s buf) (d : Drew s t ev) :
    SameFrame s0 t buf := by
  rw [d.frame]
  exact ⟨h.lut, h.fb, h.panel⟩

theorem rowEvents_congr {s0 s : State} {buf : Nat} (h : SameFrame s0 s buf) (c : Cfg) (x0 y0 x1 y1 : Half) :
    windowEvents c s x0 y0 x1 y1 = windowEvents c s0 x0 y0 x1 y1 :=
  windowEvents_congr c s0 s h.panel.1 h.panel.2.2.2.1 h.panel.2.2.2.2 ..

/-- One row (R200 step 4). -/
theorem drew_blitRow (c : Cfg) (s0 s : State) (buf n height r : Nat) (hn : n ≤ 65535) (hh : height ≤ 65535)
    (hr : r < height) (hs : SameFrame s0 s buf) :
    Drew s (blitRow c buf n (centre s0.width.toNat n) (centre s0.height.toNat height) s r)
        (if s0.transport = .null then [] else rowEvents c s0 buf n height r)
      ∧ (blitRow c buf n (centre s0.width.toNat n) (centre s0.height.toNat height) s r).stageGen = s.stageGen := by
  have quiet : Drew s (disturbRowbuf s) [] :=
    ⟨(List.append_nil _).symm, fun h => absurd rfl h, fun _ => ⟨rfl, rfl⟩, rfl⟩
  obtain ⟨et, ew, eh, _, _⟩ := hs.panel
  have hok := row_windowOk s n height r hn hh hr
  rw [rowEvents_centre]
  unfold blitRow
  rw [← ew, ← eh]
  by_cases hw : 1 ≤ n ∧ n ≤ s.width.toNat ∧ centre s.height.toNat height + r < s.height.toNat
  · have hwk := hok.2 hw
    simp only [if_pos hw]
    rw [ofNat_run_end _ _ hw.1] at hwk ⊢
    rw [setWindow_accepted c _ _ _ _ (disturbRowbuf s) hwk]
    simp only
    by_cases hn : s0.transport = .null
    · rw [addressWindow_null c _ _ _ _ (disturbRowbuf s) (et.trans hn), rawWrite_null c _ _ (disturbRowbuf s) (et.trans hn), if_pos hn]
      exact ⟨quiet, rfl⟩
    · have hs' : s.transport ≠ .null := fun h => hn (et.symm.trans h)
      rw [if_neg hn, addressWindow_sends c _ _ _ _ (disturbRowbuf s) hs', rawWrite_sends c _ _ _ (by exact hs'), sent_sent]
      have w1 : ∀ x0 y0 x1 y1, windowEvents c (disturbRowbuf s) x0 y0 x1 y1 = windowEvents c s0 x0 y0 x1 y1 :=
        rowEvents_congr hs c
      rw [w1, rowBytes_rowCells s0 s buf n r hs.lut hs.fb, sent_transport]
      have hne : ∀ x0 y0 x1 y1 l, windowEvents c s0 x0 y0 x1 y1 ++ l ≠ [] := by simp [windowEvents, frameEvents]
      have ht : (disturbRowbuf s).transport = s0.transport := et
      rw [ht]
      exact ⟨quiet.trans (drew_sent (disturbRowbuf s) (hne _ _ _ _ _)), rfl⟩
  · simp only [if_neg hw, ite_self]
    rw [setWindow_rejected c _ _ _ _ (disturbRowbuf s) (Bool.eq_false_iff.2 fun h => hw (hok.1 h))]
    exact ⟨quiet, rfl⟩

/-- The rows in order. -/
theorem drew_blitRows (c : Cfg) (s0 : State) (buf n height : Nat) (hn : n ≤ 65535) (hh : height ≤ 65535)
    (rows : List Nat) (hr : ∀ r ∈ rows, r < height) (s : State) (hs : SameFrame s0 s buf) :
    Drew s (rows.foldl (blitRow c buf n (centre s0.width.toNat n) (centre s0.height.toNat height)) s)
        (if s0.transport = .null then [] else rows.flatMap (rowEvents c s0 buf n height))
      ∧ (rows.foldl (blitRow c buf n (centre s0.width.toNat n) (centre s0.height.toNat height)) s).stageGen
        = s.stageGen := by
  induction rows generalizing s with
  | nil => exact ⟨by simpa using Drew.nothing s, rfl⟩
  | cons r rest ih =>
    obtain ⟨h, hg⟩ := drew_blitRow c s0 s buf n height r hn hh (hr r (by simp)) hs
    obtain ⟨g, gg⟩ := ih (fun r h => hr r (by simp [h])) _ (Drew.sameFrame hs h)
    refine ⟨?_, gg.trans hg⟩
    have := h.trans g
    rw [List.foldl_cons]
    split at this
    · next hn => rw [if_pos hn]; exact this
    · next hn => rw [if_neg hn, List.flatMap_cons]; exact this

/-- The checks of FINISH_UPDATE passed (R200 step 1, R201). -/
theorem opFinishUpdate_passes (c : Cfg) (s : State) (n height : Nat) (hc : s.created = true)
    (e1 : n = (u16 s.a1).toNat * c.wmul) (e2 : height = (u16 s.a2).toNat) (h1 : s.a0.toNat < c.nbuf)
    (h2 : n ≤ c.rowbufPixels) (h3 : n * height ≤ 2 * c.fbCells) :
    opFinishUpdate c s = blitFrame c s.a0.toNat n height s := by
  rw [opFinishUpdate, needPanel_created _ s hc, ← e1, ← e2]
  simp only
  rw [if_neg (by omega), if_neg (by omega), if_neg (by omega)]

theorem rowbufPixels_le (c : Cfg) : c.rowbufPixels ≤ 65535 := by
  have := c.rowbufPixelsLessOne.isLt
  unfold Cfg.rowbufPixels
  omega

end Sys2Proof.Machine
end

