-- ==== Sys2Proof/Laws/Exec.lean ====
section
/-! SUPPORT. One inversion lemma for all operations: every operation answers a next state, and what that state can be.
The provers cite it instead of unfolding the meanings. -/

namespace Sys2Proof.Machine

/-- The state an operation leaves: its `op…` on the machine's configuration. -/
def run (i : Instr) (s : State) : State :=
  match i with
  | .panelCreate => opPanelCreate Config.cfg s
  | .init => opInit Config.cfg s
  | .setBacklight => opSetBacklight Config.cfg s
  | .writeCommand => opWriteCommand Config.cfg s
  | .write => opWrite Config.cfg s
  | .setWindow => opSetWindow Config.cfg s
  | .drawPixel => opDrawPixel Config.cfg s
  | .hline => opHline Config.cfg s
  | .vline => opVline Config.cfg s
  | .fillRect => opFillRect Config.cfg s
  | .line => opLine Config.cfg s
  | .finishUpdate => opFinishUpdate Config.cfg s
  | .keypadPoll => opKeypadPoll Config.cfg s
  | .getBackBuffer => opGetBackBuffer Config.cfg s
  | .getFrontBuffer => opGetFrontBuffer Config.cfg s
  | .softwareReset => writeCommand Config.cfg 0x01 none s
  | .sleepOut => writeCommand Config.cfg 0x11 none s
  | .normalDisplayOn => writeCommand Config.cfg 0x13 none s
  | .inversionOn => writeCommand Config.cfg 0x21 none s
  | .displayOn => writeCommand Config.cfg 0x29 none s
  | .columnAddressSet start stop => writeCommand Config.cfg 0x2A (some (be16 start ++ be16 stop)) s
  | .rowAddressSet start stop => writeCommand Config.cfg 0x2B (some (be16 start ++ be16 stop)) s
  | .memoryWrite payload => writeCommand Config.cfg 0x2C (payload? payload) s
  | .pixelFormat value => writeCommand Config.cfg 0x3A (some [value]) s
  | .memoryAccessControl value => writeCommand Config.cfg 0x36 (some [value]) s

theorem exec_eq_run (i : Instr) (s : State) : exec i s = .next (run i s) := by
  cases i <;> rfl

theorem exec_next_iff (i : Instr) (s t : State) : exec i s = .next t ↔ t = run i s := by
  rw [exec_eq_run]
  constructor
  · intro h; cases h; rfl
  · rintro rfl; rfl

/-- Doing the same from `s` and from every overlay of `s`. -/
def SameOver (f g : State → State) (s : State) : Prop :=
  f s = g s ∧ ∀ scan strobe kpInit out,
    f (overlay s scan strobe kpInit out) = g (overlay s scan strobe kpInit out)

theorem SameOver.needPanel_created {body : State → State} {s : State} (h : s.created = true) :
    SameOver (needPanel body) body s :=
  ⟨Sys2Proof.Machine.needPanel_created body s h, fun k st kp o => Sys2Proof.Machine.needPanel_created body (overlay s k st kp o) h⟩

theorem SameOver.needPanel_uncreated {body : State → State} {s : State} (h : s.created = false) :
    SameOver (needPanel body) (raise .noPanel) s :=
  ⟨Sys2Proof.Machine.needPanel_uncreated body s h, fun k st kp o => Sys2Proof.Machine.needPanel_uncreated body (overlay s k st kp o) h⟩

theorem SameOver.trans {f g h : State → State} {s : State} (h1 : SameOver f g s) (h2 : SameOver g h s) :
    SameOver f h s :=
  ⟨h1.1.trans h2.1, fun k st kp o => (h1.2 k st kp o).trans (h2.2 k st kp o)⟩

theorem Moves.sameOver {f g : State → State} {s : State} (h : Moves f s) (hg : SameOver g f s) : Moves g s :=
  h.congr hg.1 hg.2

/-- What PANEL_CREATE writes, field by field (R120, R248). -/
theorem createDescriptor_eq (c : Cfg) (t : Transport) (w h : Half) (s : State) :
    createDescriptor c t w h s =
      { s with
        created := true
        transport := t
        width := w
        height := h
        xstart := match c.originTable t w h with | some (xs, _) => xs | none => s.xstart
        ystart := match c.originTable t w h with | some (_, ys) => ys | none => s.ystart
        diag := match c.originTable t w h with | some _ => s.diag | none => true
        out := s.out ++ match c.originTable t w h with | some _ => [] | none => [.diagUnsupportedDims t w h] } := by
  unfold createDescriptor
  rcases c.originTable t w h with _ | ⟨xs, ys⟩ <;> simp [emit]

/-- What an operation other than a poll and the two buffer requests can do from `s`. -/
inductive Does (i : Instr) (s : State) : Prop where
  /-- It takes a fault (R241). -/
  | faults (t : Trap) (h : t ≠ .illegalCommand) (same : SameOver (run i) (raise t) s)
  /-- PANEL_CREATE makes the descriptor (R120). -/
  | creates (hi : i = .panelCreate) (hc : s.created = false) (t : Transport)
      (same : run i s = createDescriptor Config.cfg t (u16 s.a1) (u16 s.a2) s ∧ ∀ scan strobe kpInit out,
        run i (overlay s scan strobe kpInit out)
          = createDescriptor Config.cfg t (u16 s.a1) (u16 s.a2) (overlay s scan strobe kpInit out))
  /-- FINISH_UPDATE sends a frame (R200). -/
  | blits (hi : i = .finishUpdate) (hc : s.created = true) (buf n height : Nat)
      (same : SameOver (run i) (blitFrame Config.cfg buf n height) s)
  /-- It sends events. -/
  | sends (hi : i ≠ .panelCreate ∧ i ≠ .finishUpdate) (h : Moves (run i) s)

theorem moves_setBacklight (c : Cfg) (s : State) (h : s.transport ≠ .null) :
    Moves (fun s => emit (.bl (c.gamma (u8 s.a0))) { s with blDuty := c.gamma (u8 s.a0) }) s :=
  ⟨[.bl (c.gamma (u8 s.a0))], ⟨by simp [displayEvent], rfl, .inl rfl, fun h => by simp at h, fun hn => absurd hn h⟩,
    fun _ _ _ _ => rfl⟩

theorem sameOver_ite {f g : State → State} {p : State → Prop} [∀ s, Decidable (p s)] {s : State}
    (hp : ∀ scan strobe kpInit out, p (overlay s scan strobe kpInit out) ↔ p s) :
    (p s → SameOver (fun s => if p s then f s else g s) f s)
      ∧ (¬ p s → SameOver (fun s => if p s then f s else g s) g s) :=
  ⟨fun h => ⟨if_pos h, fun k st kp o => if_pos ((hp k st kp o).2 h)⟩,
    fun h => ⟨if_neg h, fun k st kp o => if_neg (mt (hp k st kp o).1 h)⟩⟩

theorem does_needPanel {i : Instr} {body : State → State} (s : State) (hr : run i = needPanel body)
    (hi : i ≠ .panelCreate ∧ i ≠ .finishUpdate)
    (hbody : Moves body s ∨ SameOver body (raise .lengthFault) s) : Does i s := by
  by_cases h : s.created = true
  · rcases hbody with hb | hb
    · exact .sends hi (hr ▸ hb.sameOver (SameOver.needPanel_created h))
    · exact .faults .lengthFault (by simp) (hr ▸ (SameOver.needPanel_created h).trans hb)
  · exact .faults .noPanel (by simp) (hr ▸ SameOver.needPanel_uncreated (Bool.eq_false_iff.2 h))

/-- Every operation but a poll and the two buffer requests does one of the things of `Does`. -/
theorem does_run (i : Instr) (s : State) (h1 : i ≠ .keypadPoll) (h2 : i ≠ .getBackBuffer) (h3 : i ≠ .getFrontBuffer) :
    Does i s := by
  cases i with
  | keypadPoll => exact absurd rfl h1
  | getBackBuffer => exact absurd rfl h2
  | getFrontBuffer => exact absurd rfl h3
  | panelCreate =>
    by_cases hc : s.created = true
    · exact .faults .alreadyCreated (by simp) ⟨by simp [run, opPanelCreate, hc], fun _ _ _ _ => by
        simp [run, opPanelCreate, overlay, hc]⟩
    · have hc := Bool.eq_false_iff.2 hc
      cases ht : transportOperand s.a0 with
      | none => exact .faults .badTransport (by simp) ⟨by simp [run, opPanelCreate, hc, ht], fun _ _ _ _ => by
          simp [run, opPanelCreate, overlay, hc, ht]⟩
      | some t => exact .creates rfl hc t ⟨by simp [run, opPanelCreate, hc, ht], fun _ _ _ _ => by
          simp [run, opPanelCreate, overlay, hc, ht]⟩
  | init =>
    refine does_needPanel s rfl (by simp) (.inl ?_)
    obtain ⟨hp, hn⟩ := sameOver_ite (s := s) (f := fun s => s) (g := initSequence Config.cfg)
      (p := fun s => s.transport = .null) fun _ _ _ _ => Iff.rfl
    by_cases h : s.transport = .null
    · exact (Moves.id s).sameOver (hp h)
    · exact (moves_initSequence Config.cfg s h).sameOver (hn h)
  | setBacklight =>
    refine does_needPanel s rfl (by simp) (.inl ?_)
    obtain ⟨hp, hn⟩ := sameOver_ite (s := s) (f := fun s => s)
      (g := fun s => emit (.bl (Config.cfg.gamma (u8 s.a0))) { s with blDuty := Config.cfg.gamma (u8 s.a0) })
      (p := fun s => s.transport = .null) fun _ _ _ _ => Iff.rfl
    by_cases h : s.transport = .null
    · exact (Moves.id s).sameOver (hp h)
    · exact (moves_setBacklight Config.cfg s h).sameOver (hn h)
  | writeCommand =>
    refine does_needPanel s rfl (by simp) ?_
    obtain ⟨hp, hn⟩ := sameOver_ite (s := s) (f := raise .lengthFault)
      (g := fun s => writeCommand Config.cfg (u8 s.a0) (payload? (xbufBytes s s.a1.toNat)) s)
      (p := fun s => s.a1.toNat > Config.cfg.xbufBytes) fun _ _ _ _ => Iff.rfl
    by_cases h : s.a1.toNat > Config.cfg.xbufBytes
    · exact .inr (hp h)
    · refine .inl (Moves.sameOver ?_ (hn h))
      exact (moves_writeCommand Config.cfg (u8 s.a0) (payload? (xbufBytes s s.a1.toNat)) s).congr rfl
        fun _ _ _ _ => rfl
  | write =>
    refine does_needPanel s rfl (by simp) ?_
    obtain ⟨hp, hn⟩ := sameOver_ite (s := s) (f := raise .lengthFault)
      (g := fun s => if s.a0 = 0 then s else rawWrite Config.cfg (xbufBytes s s.a0.toNat) true s)
      (p := fun s => s.a0.toNat > Config.cfg.xbufBytes) fun _ _ _ _ => Iff.rfl
    by_cases h : s.a0.toNat > Config.cfg.xbufBytes
    · exact .inr (hp h)
    · refine .inl (Moves.sameOver ?_ (hn h))
      obtain ⟨hp, hn⟩ := sameOver_ite (s := s) (f := fun s => s)
        (g := fun s => rawWrite Config.cfg (xbufBytes s s.a0.toNat) true s)
        (p := fun s => s.a0 = 0) fun _ _ _ _ => Iff.rfl
      by_cases h : s.a0 = 0
      · exact (Moves.id s).sameOver (hp h)
      · refine Moves.sameOver ?_ (hn h)
        exact (moves_rawWrite Config.cfg (xbufBytes s s.a0.toNat) true s).congr rfl fun _ _ _ _ => rfl
  | setWindow =>
    refine does_needPanel s rfl (by simp) (.inl ?_)
    exact (moves_setWindow Config.cfg (u16 s.a0) (u16 s.a1) (u16 s.a2) (u16 s.a3) s).congr rfl fun _ _ _ _ => rfl
  | drawPixel =>
    refine does_needPanel s rfl (by simp) (.inl ?_)
    exact (moves_fillWindow Config.cfg (u16 s.a0) (u16 s.a1) (u16 s.a0) (u16 s.a1) 1 (u16 s.a2) s).congr rfl
      fun _ _ _ _ => rfl
  | hline =>
    refine does_needPanel s rfl (by simp) (.inl ?_)
    exact (moves_fillWindow Config.cfg (u16 s.a0) (u16 s.a1) (u16 s.a0 + u16 s.a2 - 1) (u16 s.a1) (u16 s.a2).toNat
      (u16 s.a3) s).congr rfl fun _ _ _ _ => rfl
  | vline =>
    refine does_needPanel s rfl (by simp) (.inl ?_)
    exact (moves_fillWindow Config.cfg (u16 s.a0) (u16 s.a1) (u16 s.a0) (u16 s.a1 + u16 s.a2 - 1) (u16 s.a2).toNat
      (u16 s.a3) s).congr rfl fun _ _ _ _ => rfl
  | fillRect =>
    refine does_needPanel s rfl (by simp) (.inl ?_)
    exact (moves_fillWindow Config.cfg (u16 s.a0) (u16 s.a1) (u16 s.a0 + u16 s.a2 - 1) (u16 s.a1 + u16 s.a3 - 1)
      ((u16 s.a2).toNat * (u16 s.a3).toNat) (u16 s.a4) s).congr rfl fun _ _ _ _ => rfl
  | line =>
    refine does_needPanel s rfl (by simp) (.inl ?_)
    exact (moves_emitRuns Config.cfg (lineSteep (s16 s.a0) (s16 s.a1) (s16 s.a2) (s16 s.a3)) (u16 s.a4)
      (lineRuns (s16 s.a0) (s16 s.a1) (s16 s.a2) (s16 s.a3)) s).congr rfl fun _ _ _ _ => rfl
  | finishUpdate =>
    by_cases hc : s.created = true
    · have hsame : SameOver (run .finishUpdate) _ s := SameOver.needPanel_created hc
      by_cases h1 : s.a0.toNat ≥ Config.cfg.nbuf
      · exact .faults .sourceRange (by simp) (hsame.trans ⟨if_pos h1, fun _ _ _ _ => if_pos h1⟩)
      · by_cases h2 : (u16 s.a1).toNat * Config.cfg.wmul > Config.cfg.rowbufPixels
        · exact .faults .rowOverflow (by simp) (hsame.trans
            ⟨(if_neg h1).trans (if_pos h2), fun _ _ _ _ => (if_neg h1).trans (if_pos h2)⟩)
        · by_cases h3 : (u16 s.a1).toNat * Config.cfg.wmul * (u16 s.a2).toNat > 2 * Config.cfg.fbCells
          · exact .faults .sourceRange (by simp) (hsame.trans
              ⟨(if_neg h1).trans ((if_neg h2).trans (if_pos h3)),
                fun _ _ _ _ => (if_neg h1).trans ((if_neg h2).trans (if_pos h3))⟩)
          · exact .blits rfl hc s.a0.toNat ((u16 s.a1).toNat * Config.cfg.wmul) (u16 s.a2).toNat (hsame.trans
              ⟨(if_neg h1).trans ((if_neg h2).trans (if_neg h3)),
                fun _ _ _ _ => (if_neg h1).trans ((if_neg h2).trans (if_neg h3))⟩)
    · exact .faults .noPanel (by simp) (SameOver.needPanel_uncreated (Bool.eq_false_iff.2 hc))
  | softwareReset => exact .sends (by simp) (moves_writeCommand Config.cfg _ _ s)
  | sleepOut => exact .sends (by simp) (moves_writeCommand Config.cfg _ _ s)
  | normalDisplayOn => exact .sends (by simp) (moves_writeCommand Config.cfg _ _ s)
  | inversionOn => exact .sends (by simp) (moves_writeCommand Config.cfg _ _ s)
  | displayOn => exact .sends (by simp) (moves_writeCommand Config.cfg _ _ s)
  | columnAddressSet start stop => exact .sends (by simp) (moves_writeCommand Config.cfg _ _ s)
  | rowAddressSet start stop => exact .sends (by simp) (moves_writeCommand Config.cfg _ _ s)
  | memoryWrite payload => exact .sends (by simp) (moves_writeCommand Config.cfg _ _ s)
  | pixelFormat value => exact .sends (by simp) (moves_writeCommand Config.cfg _ _ s)
  | memoryAccessControl value => exact .sends (by simp) (moves_writeCommand Config.cfg _ _ s)

/-- Every operation is a poll, one of the two buffer requests, or does one of the things of `Does`. -/
theorem run_cases (i : Instr) (s : State) :
    i = .keypadPoll ∨ i = .getBackBuffer ∨ i = .getFrontBuffer ∨ Does i s := by
  by_cases h1 : i = .keypadPoll
  · exact .inl h1
  by_cases h2 : i = .getBackBuffer
  · exact .inr (.inl h2)
  by_cases h3 : i = .getFrontBuffer
  · exact .inr (.inr (.inl h3))
  exact .inr (.inr (.inr (does_run i s h1 h2 h3)))

end Sys2Proof.Machine
end

