-- ==== Sys2Proof/Laws/Flags.lean ====
section
/-! SUPPORT. STATUS and SCANREG bit by bit (spec/10_state.md R26, R27). -/

namespace Sys2Proof.Machine

theorem getLsbD_flagBit (b : Bool) (n i : Nat) (hi : i < 32) : (flagBit b n).getLsbD i = (b && decide (i = n)) := by
  unfold flagBit
  cases b
  · simp
  · by_cases h : i = n
    · subst h; simp [hi]
    · simp [hi, h]; omega

theorem getLsbD_keyBits (keys : Vector Bool 5) (i : Nat) (hi : i < 32) :
    (keyBits keys).getLsbD i = if h : i < 5 then keys[i] else false := by
  simp only [keyBits, BitVec.getLsbD_or, getLsbD_flagBit _ _ _ hi]
  split
  · next h => interval_cases i <;> simp
  · simp; omega

theorem getLsbD_statusWord (s : State) (i : Nat) (hi : i < 32) :
    (statusWord s).getLsbD i =
      ((s.fault && decide (i = 0)) || (s.diag && decide (i = 1)) || (s.created && decide (i = 2))
        || (s.kpInit && decide (i = 3)) || (s.fbSel && decide (i = 4))
        || (decide (8 ≤ i) && s.faultcode.getLsbD (i - 8))) := by
  simp only [statusWord, BitVec.getLsbD_or, BitVec.getLsbD_shiftLeft, getLsbD_flagBit _ _ _ hi,
    BitVec.getLsbD_setWidth, hi]
  have h32 : i - 8 < 32 := by omega
  by_cases h8 : i < 8
  · have : ¬ 8 ≤ i := by omega
    simp [h8, this]
  · have : 8 ≤ i := by omega
    simp [h8, h32, this]

theorem getLsbD_scanWord (s : State) (i : Nat) (hi : i < 32) :
    (scanWord s).getLsbD i =
      ((keyBits s.scan[0]).getLsbD i || (decide (8 ≤ i) && (keyBits s.scan[1]).getLsbD (i - 8))) := by
  simp only [scanWord, BitVec.getLsbD_or, BitVec.getLsbD_shiftLeft, hi]
  by_cases h8 : i < 8
  · have : ¬ 8 ≤ i := by omega
    simp [h8, this]
  · have : 8 ≤ i := by omega
    simp [h8, this]

end Sys2Proof.Machine
end

