-- ==== Sys2Proof/Laws/Keypad.lean ====
section
/-! SUPPORT. What one sample of a key and one phase of a poll do (spec/45_keypad_scanner.md R220, R221). -/

namespace Sys2Proof.Machine

/-- The matrix with one key set. -/
def withKey (m : KeyMatrix) (p : Fin 2) (i : Fin 5) (v : Bool) : KeyMatrix := m.set p (m[p].set i v)

theorem getElem_withKey (m : KeyMatrix) (p q : Fin 2) (i j : Fin 5) (v : Bool) :
    (withKey m p i v)[q][j] = if q = p ∧ j = i then v else m[q][j] := by
  unfold withKey
  by_cases h : q = p
  · subst h
    by_cases h2 : j = i
    · subst h2; simp
    · have : (i : Nat) ≠ j := fun h => h2 (Fin.ext h.symm)
      simp [h2, this]
  · have : (p : Nat) ≠ q := fun h' => h (Fin.ext h'.symm)
    simp [h, this]

theorem matrix_ext (a b : KeyMatrix) (h : ∀ (p : Fin 2) (i : Fin 5), a[p][i] = b[p][i]) : a = b :=
  Vector.ext fun p hp => Vector.ext fun i hi => h ⟨p, hp⟩ ⟨i, hi⟩

theorem withKey_same (m : KeyMatrix) (p : Fin 2) (i : Fin 5) : withKey m p i m[p][i] = m := by
  apply matrix_ext
  intro q j
  rw [getElem_withKey]
  split
  · next h => rw [h.1, h.2]
  · rfl

/-- The events of a key depend on the levels and on that key's remembered level only. -/
theorem keyEvent_congr (c : Cfg) (s t : State) (p : Fin 2) (i : Fin 5) (hl : t.levels = s.levels)
    (hs : t.scan[p][i] = s.scan[p][i]) : keyEvent c t p i = keyEvent c s p i := by
  unfold keyEvent
  rw [hl, hs]

/-- One sample: the remembered level becomes the level read, and a change posts its event. -/
theorem sampleKey_eq (c : Cfg) (p : Fin 2) (s : State) (i : Fin 5) :
    sampleKey c p s i =
      { s with scan := withKey s.scan p i s.levels[p][i], out := s.out ++ keyEvent c s p i } := by
  unfold sampleKey keyEvent
  have same := withKey_same s.scan p i
  cases hl : s.levels[p][i] <;> cases hs : s.scan[p][i] <;> rw [hs] at same
  · simp [same]
  · simp [emit, setKey, withKey]
  · simp [emit, setKey, withKey]
  · simp [same]

/-- The samples of distinct keys of one phase. -/
theorem foldl_sampleKey (c : Cfg) (p : Fin 2) (keys : List (Fin 5)) (h : keys.Nodup) (s : State) :
    keys.foldl (sampleKey c p) s =
      { s with
        scan := keys.foldl (fun (m : KeyMatrix) (i : Fin 5) => withKey m p i s.levels[p][i]) s.scan
        out := s.out ++ keys.flatMap (keyEvent c s p) } := by
  induction keys generalizing s with
  | nil => simp
  | cons i rest ih =>
    have hk : rest.flatMap (keyEvent c (sampleKey c p s i) p) = rest.flatMap (keyEvent c s p) := by
      refine List.flatMap_congr fun j hj => keyEvent_congr c _ _ p j ?_ ?_
      · rw [sampleKey_eq]
      · have : j ≠ i := fun e => (List.nodup_cons.1 h).1 (e ▸ hj)
        rw [sampleKey_eq]
        simp only [getElem_withKey, this, and_false, if_false]
    rw [List.foldl_cons, ih (List.nodup_cons.1 h).2, hk, sampleKey_eq]
    simp

/-- One phase: its strobe, its settle delay, the samples of its five keys. -/
theorem scanPhase_eq (c : Cfg) (p : Fin 2) (s : State) :
    scanPhase c p s =
      { s with
        strobe := phaseStrobe p
        scan := s.scan.set p s.levels[p]
        out := s.out ++ ([.strobe (phaseStrobe p), .delayUs c.tStrobeUs] ++ phaseEvents c s p) } := by
  have hs : ([0, 1, 2, 3, 4] : List (Fin 5)).foldl
      (fun (m : KeyMatrix) (i : Fin 5) => withKey m p i s.levels[p][i]) s.scan = s.scan.set p s.levels[p] := by
    apply matrix_ext
    intro q j
    simp only [List.foldl, getElem_withKey]
    by_cases h : q = p
    · subst h
      have : j = 0 ∨ j = 1 ∨ j = 2 ∨ j = 3 ∨ j = 4 := by revert j; decide
      rcases this with rfl | rfl | rfl | rfl | rfl <;> simp
    · have : (p : Nat) ≠ q := fun h' => h (Fin.ext h'.symm)
      simp [h, this]
  unfold scanPhase
  rw [foldl_sampleKey c p _ (by decide)]
  simp only [delayUs, driveStrobe, emit, phaseEvents, List.append_assoc, List.flatMap_cons, List.flatMap_nil,
    List.append_nil] at hs ⊢
  rw [hs]
  rfl

end Sys2Proof.Machine
end

