-- ==== Sys2Proof/Laws/Observe.lean ====
section
/-! SUPPORT. The projections of OUT and the frames of the event lists, said once. -/

namespace Sys2Proof.Machine

/-! ## Projections (spec/10_state.md R41) -/

theorem wireOf_append (a b : List Event) : wireOf (a ++ b) = wireOf a ++ wireOf b := List.filter_append ..
theorem kpWireOf_append (a b : List Event) : kpWireOf (a ++ b) = kpWireOf a ++ kpWireOf b := List.filter_append ..
theorem evqOf_append (a b : List Event) : evqOf (a ++ b) = evqOf a ++ evqOf b := List.filterMap_append ..
theorem diagsOf_append (a b : List Event) : diagsOf (a ++ b) = diagsOf a ++ diagsOf b := List.filterMap_append ..

/-! ## Frames -/

/-- The frame that `frameEvents` puts on the wire. -/
def frameOf (cmd : Byte) (data : Option (List Byte)) : WireFrame := ⟨if cmd = 0 then none else some cmd, data.getD []⟩

/-- A frame is read back whole, whatever the selector's level was before it; after it the selector is high. -/
theorem framesFrom_frameEvents (c : Cfg) (t : Transport) (cmd : Byte) (data : Option (List Byte)) (high : Bool)
    (rest : List Event) :
    framesFrom none high (frameEvents c t cmd data ++ rest) = frameOf cmd data :: framesFrom none true rest := by
  unfold frameEvents frameOf
  by_cases h : cmd = 0
  · rw [if_pos h, if_pos h]
    cases data <;> simp [framesFrom, addToFrame]
  · rw [if_neg h, if_neg h]
    cases data <;> simp [framesFrom, addToFrame]

/-- The frames of an accepted window (R124, R125). -/
def windowFrames (s : State) (x0 y0 x1 y1 : Half) : List WireFrame :=
  [frameOf 0x2A (some (be16 (x0 + s.xstart) ++ be16 (x1 + s.xstart))),
    frameOf 0x2B (some (be16 (y0 + s.ystart) ++ be16 (y1 + s.ystart)))]
    ++ (if s.transport = .serial then [frameOf 0x2C none] else [])

theorem framesFrom_windowEvents (c : Cfg) (s : State) (x0 y0 x1 y1 : Half) (high : Bool) (rest : List Event) :
    framesFrom none high (windowEvents c s x0 y0 x1 y1 ++ rest) = windowFrames s x0 y0 x1 y1 ++ framesFrom none true rest := by
  unfold windowEvents windowFrames
  by_cases h : s.transport = .serial
  · simp only [h, if_true, List.append_assoc, framesFrom_frameEvents, List.cons_append, List.nil_append]
  · simp only [h, if_false, List.append_assoc, framesFrom_frameEvents, List.cons_append, List.nil_append, List.append_nil]

/-- The frame of one piece of a window write (R127). -/
def pieceFrame (t : Transport) (first : Bool) (bytes : List Byte) : WireFrame :=
  frameOf (if t = .parallel ∧ first = true then 0x2C else 0) (some bytes)

theorem framesFrom_pieceEvents (c : Cfg) (t : Transport) (first : Bool) (bytes : List Byte) (high : Bool)
    (rest : List Event) :
    framesFrom none high (pieceEvents c t first bytes ++ rest) = pieceFrame t first bytes :: framesFrom none true rest :=
  framesFrom_frameEvents ..

/-- The frames of a fill's chunks. -/
def chunkFrames (t : Transport) (color : Half) (first : Bool) : List Nat → List WireFrame
  | [] => []
  | n :: rest => pieceFrame t first (rep n (be16 color)) :: chunkFrames t color false rest

end Sys2Proof.Machine
end

