-- ==== Sys2Proof/Laws/Panel.lean ====
section
/-! SUPPORT. What the panel observer makes of the event lists (spec/20_memory.md R76, spec/70_reset_and_hazards.md R281). -/

namespace Sys2Proof.Machine

/-! ## Streams read as frames -/

/-- The stream `events` is read as the frames `frames` and leaves no frame open. -/
def Reads (events : List Event) (frames : List WireFrame) : Prop :=
  ∀ high, ∃ high', ∀ rest, framesFrom none high (events ++ rest) = frames ++ framesFrom none high' rest

theorem Reads.nil : Reads [] [] := fun high => ⟨high, fun _ => rfl⟩

theorem Reads.append {a b : List Event} {f g : List WireFrame} (ha : Reads a f) (hb : Reads b g) :
    Reads (a ++ b) (f ++ g) := fun high => by
  obtain ⟨h1, e1⟩ := ha high
  obtain ⟨h2, e2⟩ := hb h1
  exact ⟨h2, fun rest => by rw [List.append_assoc, e1, e2, List.append_assoc]⟩

theorem Reads.framesOf {a : List Event} {f : List WireFrame} (h : Reads a f) : framesOf a = f := by
  obtain ⟨h', e⟩ := h false
  have := e []
  rwa [List.append_nil, framesFrom, List.append_nil] at this

theorem reads_frame (c : Cfg) (t : Transport) (cmd : Byte) (data : Option (List Byte)) :
    Reads (frameEvents c t cmd data) [frameOf cmd data] := fun high =>
  ⟨true, fun rest => framesFrom_frameEvents c t cmd data high rest⟩

theorem reads_window (c : Cfg) (s : State) (x0 y0 x1 y1 : Half) :
    Reads (windowEvents c s x0 y0 x1 y1) (windowFrames s x0 y0 x1 y1) := fun high =>
  ⟨true, fun rest => framesFrom_windowEvents c s x0 y0 x1 y1 high rest⟩

theorem reads_piece (c : Cfg) (t : Transport) (first : Bool) (bytes : List Byte) :
    Reads (pieceEvents c t first bytes) [pieceFrame t first bytes] := reads_frame c t _ _

theorem reads_chunks (c : Cfg) (t : Transport) (color : Half) (first : Bool) (sizes : List Nat) :
    Reads (chunkEvents c t color first sizes) (chunkFrames t color first sizes) := by
  induction sizes generalizing first with
  | nil => exact Reads.nil
  | cons n rest ih => exact (reads_piece c t first _).append (ih false)

theorem reads_fill (c : Cfg) (s : State) (x0 y0 x1 y1 : Half) (count : Nat) (color : Half) :
    Reads (fillEvents c s x0 y0 x1 y1 count color)
      (windowFrames s x0 y0 x1 y1 ++ chunkFrames s.transport color true (chunkSizes count)) :=
  (reads_window c s x0 y0 x1 y1).append (reads_chunks c _ color true _)

theorem reads_delay (ms : Nat) : Reads [.delayMs ms] [] := fun high => ⟨high, fun _ => rfl⟩

theorem reads_step (c : Cfg) (t : Transport) (cmd : Byte) (data : Option (List Byte)) (ms : Nat) :
    Reads (stepEvents c t cmd data ms) [frameOf cmd data] := (reads_frame c t cmd data).append (reads_delay ms)

theorem reads_hardReset (c : Cfg) : Reads (hardResetEvents c) [] := fun high =>
  ⟨high, fun _ => by unfold hardResetEvents; split <;> rfl⟩

theorem reads_flatMap {α : Type} (f : α → List Event) (g : α → List WireFrame) (h : ∀ a, Reads (f a) (g a))
    (l : List α) : Reads (l.flatMap f) (l.flatMap g) := by
  induction l with
  | nil => exact Reads.nil
  | cons a l ih =>
    rw [List.flatMap_cons, List.flatMap_cons]
    exact (h a).append ih

/-! ## Fills in bytes -/

theorem chunkSizes_sum (count : Nat) : (chunkSizes count).sum = count := by
  unfold chunkSizes stagePixels
  split <;> simp <;> omega

theorem chunkSizes_ne_nil (count : Nat) (h : 1 ≤ count) : chunkSizes count ≠ [] := by
  intro he
  have := chunkSizes_sum count
  rw [he] at this
  simp at this
  omega

/-- The data of a fill's frames together. -/
theorem chunkFrames_data (t : Transport) (color : Half) (first : Bool) (sizes : List Nat) :
    ((chunkFrames t color first sizes).map (·.data)).flatten = rep sizes.sum (be16 color) := by
  induction sizes generalizing first with
  | nil => rfl
  | cons n rest ih => simp [chunkFrames, ih, pieceFrame, frameOf, rep_add]

theorem pixelsOf_be16 (v : Half) (rest : List Byte) : pixelsOf (be16 v ++ rest) = (pixelsOf rest).map (v :: ·) := by
  simp only [be16, List.cons_append, List.nil_append, pixelsOf, ofBytes_hi8_lo8]

theorem pixelsOf_flatten (px : List Half) : pixelsOf (px.map be16).flatten = some px := by
  induction px with
  | nil => rfl
  | cons v rest ih => rw [List.map_cons, List.flatten_cons, pixelsOf_be16, ih]; rfl

theorem rep_be16 (n : Nat) (v : Half) : rep n (be16 v) = ((List.replicate n v).map be16).flatten := by
  simp [rep]

/-! ## What the observer notes -/

/-- The window on the wire, origin added (R101). -/
def wireWindow (s : State) (x0 y0 x1 y1 : Half) : Window :=
  ⟨(x0 + s.xstart).toNat, (x1 + s.xstart).toNat, (y0 + s.ystart).toNat, (y1 + s.ystart).toNat⟩

theorem boundPair_be16 (a b : Half) : boundPair (be16 a ++ be16 b) = some (a.toNat, b.toNat) := by
  simp only [be16, List.cons_append, List.nil_append, boundPair, ofBytes_hi8_lo8]

theorem panelNotesFrom_data (c : Cfg) (w : Window) (bytes : List Byte) (t : Transport) (color : Half) (sizes : List Nat)
    (rest : List WireFrame) :
    panelNotesFrom c (.writing w bytes) (chunkFrames t color false sizes ++ rest)
      = panelNotesFrom c (.writing w (bytes ++ rep sizes.sum (be16 color))) rest := by
  induction sizes generalizing bytes with
  | nil => simp [chunkFrames, rep]
  | cons n more ih =>
    simp only [chunkFrames, pieceFrame, frameOf, List.cons_append, panelNotesFrom, panelData]
    simp [ih, rep_add]

/-- A window and the first piece of its write: the phase before is closed, and a write is in progress. -/
theorem panelNotesFrom_window (c : Cfg) (p : PanelPhase) (s : State) (x0 y0 x1 y1 : Half) (bytes : List Byte)
    (rest : List WireFrame) (h : s.transport ≠ .null) :
    panelNotesFrom c p (windowFrames s x0 y0 x1 y1 ++ pieceFrame s.transport true bytes :: rest)
      = closePhase p ++ panelNotesFrom c (.writing (wireWindow s x0 y0 x1 y1) bytes) rest := by
  cases ht : s.transport with
  | null => exact absurd ht h
  | serial =>
    simp [windowFrames, frameOf, pieceFrame, ht, panelNotesFrom, panelCommand, panelData, boundPair_be16, wireWindow]
  | parallel =>
    simp [windowFrames, frameOf, pieceFrame, ht, panelNotesFrom, panelCommand, boundPair_be16, wireWindow]

/-- A fill: the phase before is closed, and a write of all its pixels is in progress. -/
theorem panelNotesFrom_fill (c : Cfg) (p : PanelPhase) (s : State) (x0 y0 x1 y1 : Half) (count : Nat) (color : Half)
    (rest : List WireFrame) (h : s.transport ≠ .null) (hc : 1 ≤ count) :
    panelNotesFrom c p (windowFrames s x0 y0 x1 y1 ++ chunkFrames s.transport color true (chunkSizes count) ++ rest)
      = closePhase p ++ panelNotesFrom c (.writing (wireWindow s x0 y0 x1 y1) (rep count (be16 color))) rest := by
  have hsum := chunkSizes_sum count
  cases hs : chunkSizes count with
  | nil => exact absurd hs (chunkSizes_ne_nil count hc)
  | cons n more =>
    rw [hs, List.sum_cons] at hsum
    rw [chunkFrames, List.append_assoc, List.cons_append, panelNotesFrom_window c p s _ _ _ _ _ _ h,
      panelNotesFrom_data, ← rep_add, hsum]

/-- The one note of a fill that was accepted. -/
theorem panelNotes_fill (c : Cfg) (s : State) (x0 y0 x1 y1 : Half) (count : Nat) (color : Half)
    (h : s.transport ≠ .null) (hc : 1 ≤ count) :
    panelNotes c (fillEvents c s x0 y0 x1 y1 count color)
      = [.write (wireWindow s x0 y0 x1 y1) (rep count (be16 color))] := by
  have e := panelNotesFrom_fill c .idle s x0 y0 x1 y1 count color [] h hc
  rw [List.append_nil] at e
  rw [panelNotes, (reads_fill c s x0 y0 x1 y1 count color).framesOf, e]
  rfl

/-! ## One operation -/

theorem operationNotes_generated (c : Cfg) (i : Instr) (events : List Event) (h : i ∈ generatesPixels) :
    operationNotes c i events = panelNotes c events := if_pos h

theorem operationNotes_host (c : Cfg) (i : Instr) (events : List Event) (h : i ∉ generatesPixels) :
    operationNotes c i events = (framesOf events).flatMap hostFrameNotes := if_neg h

/-- Addressing a window alone moves no pixel. -/
theorem hostFrameNotes_window (s : State) (x0 y0 x1 y1 : Half) :
    (windowFrames s x0 y0 x1 y1).flatMap hostFrameNotes = [] := by
  unfold windowFrames
  split <;> simp [frameOf, hostFrameNotes, be16]

/-- Pixel data that the host sends is no part of a window write. -/
theorem hostFrameNotes_piece (t : Transport) (first : Bool) (bytes : List Byte) (h : bytes ≠ []) :
    hostFrameNotes (pieceFrame t first bytes) = [.scattered] := by
  unfold pieceFrame frameOf
  split <;> simp [hostFrameNotes, h]

/-! ## Where pixels land (spec/20_memory.md R76) -/

/-- A write that lands moves its window's cells and no other. -/
theorem seeNote_landed (w : Window) (bytes : List Byte) (x y : Nat) (v : CellView) (hv : v.lost = false)
    (h : lands w bytes = true) :
    seeNote x y v (.write w bytes) = if w.contains x y then ⟨landing w bytes x y, false⟩ else v := by
  simp [seeNote, hv, h]

/-- After a write without a landing rule no cell is known. -/
theorem seeNote_unlanded (w : Window) (bytes : List Byte) (x y : Nat) (v : CellView) (hv : v.lost = false)
    (h : lands w bytes = false) : seeNote x y v (.write w bytes) = ⟨none, false⟩ := by
  simp [seeNote, hv, h]

/-- A window whose bounds run down has no landing rule. -/
theorem lands_falling (w : Window) (bytes : List Byte) (h : w.cb < w.ca ∨ w.rb < w.ra) : lands w bytes = false := by
  unfold lands
  rcases h with h | h
  · simp [Nat.not_le.2 h]
  · simp [Nat.not_le.2 h]

/-- Case (a): a window of one row, one pixel for each column. -/
theorem lands_row (w : Window) (px : List Half) (h0 : w.ca ≤ w.cb) (h1 : w.ra = w.rb)
    (h2 : px.length = w.cb - w.ca + 1) : lands w (px.map be16).flatten = true := by
  simp [lands, pixelsOf_flatten, Window.isRow, h0, h1, h2]

theorem landing_row (w : Window) (px : List Half) (x y : Nat) (h1 : w.ra = w.rb) (h2 : px.length = w.cb - w.ca + 1) :
    landing w (px.map be16).flatten x y = px[x - w.ca]? := by
  simp [landing, pixelsOf_flatten, Window.isRow, h1, h2]

/-- Case (c), of which a fill always is: one colour everywhere. -/
theorem lands_fill (w : Window) (n : Nat) (color : Half) (h0 : w.ca ≤ w.cb) (h1 : w.ra ≤ w.rb)
    (hn : n = (w.cb - w.ca + 1) * (w.rb - w.ra + 1)) : lands w (rep n (be16 color)) = true := by
  have hu : w.isUniform (List.replicate n color) = true := by
    cases n with
    | zero => simp [Window.isUniform, ← hn]
    | succ n => simp [Window.isUniform, ← hn, List.replicate_succ]
  unfold lands
  rw [rep_be16, pixelsOf_flatten]
  simp [h0, h1, hu]

/-- All three cases give a fill's colour everywhere in its window. -/
theorem landing_fill (w : Window) (n : Nat) (color : Half) (x y : Nat)
    (hn : n = (w.cb - w.ca + 1) * (w.rb - w.ra + 1)) (hin : w.contains x y = true) :
    landing w (rep n (be16 color)) x y = some color := by
  unfold landing
  rw [rep_be16, pixelsOf_flatten]
  simp only [Window.contains, Bool.and_eq_true, decide_eq_true_eq] at hin
  obtain ⟨⟨⟨h1, h2⟩, h3⟩, h4⟩ := hin
  have hpos : 1 ≤ n := by rw [hn]; exact Nat.mul_pos (by omega) (by omega)
  simp only [List.length_replicate, Window.isRow, Window.isColumn, Bool.and_eq_true, beq_iff_eq]
  split
  · rw [List.getElem?_replicate, if_pos (by omega)]
  · split
    · rw [List.getElem?_replicate, if_pos (by omega)]
    · cases n with
      | zero => omega
      | succ n => rfl

/-! ## Streams that leave the panel determined -/

/-- The frames are window writes and commands of INIT, whatever came before them and whatever such frames follow. -/
def Clean (c : Cfg) (frames : List WireFrame) : Prop :=
  ∀ p rest, (∀ q, ∀ n ∈ panelNotesFrom c q rest, ∃ w bytes, n = .write w bytes) →
    ∀ n ∈ panelNotesFrom c p (frames ++ rest), ∃ w bytes, n = .write w bytes

theorem writes_closePhase (p : PanelPhase) : ∀ n ∈ closePhase p, ∃ w bytes, n = .write w bytes := by
  cases p <;> simp [closePhase]

theorem clean_window (c : Cfg) (s : State) (x0 y0 x1 y1 : Half) (bytes : List Byte) (h : s.transport ≠ .null) :
    Clean c (windowFrames s x0 y0 x1 y1 ++ [pieceFrame s.transport true bytes]) := fun p rest hr => by
  rw [List.append_assoc, List.singleton_append, panelNotesFrom_window c p s _ _ _ _ _ _ h]
  exact List.forall_mem_append.2 ⟨writes_closePhase p, hr _⟩

theorem clean_fill (c : Cfg) (s : State) (x0 y0 x1 y1 : Half) (count : Nat) (color : Half) (h : s.transport ≠ .null)
    (hc : 1 ≤ count) :
    Clean c (windowFrames s x0 y0 x1 y1 ++ chunkFrames s.transport color true (chunkSizes count)) := fun p rest hr => by
  rw [panelNotesFrom_fill c p s _ _ _ _ _ _ _ h hc]
  exact List.forall_mem_append.2 ⟨writes_closePhase p, hr _⟩

/-- A command frame that the observer takes for one of INIT's. -/
theorem clean_command (c : Cfg) (b : Byte) (data : Option (List Byte)) (hb : b ≠ 0)
    (h : ∀ p, panelCommand c p b (data.getD []) = (closePhase p, .idle)) : Clean c [frameOf b data] := fun p rest hr => by
  simp only [frameOf, List.singleton_append, panelNotesFrom, if_neg hb, h]
  exact List.forall_mem_append.2 ⟨writes_closePhase p, hr _⟩

/-- A stream whose frames are clean. -/
def CleanEvents (c : Cfg) (events : List Event) : Prop := ∃ frames, Reads events frames ∧ Clean c frames

theorem CleanEvents.nil (c : Cfg) : CleanEvents c [] := ⟨[], Reads.nil, fun p _ h => h p⟩

theorem CleanEvents.append {c : Cfg} {a b : List Event} (ha : CleanEvents c a) (hb : CleanEvents c b) :
    CleanEvents c (a ++ b) := by
  obtain ⟨f, h1, h2⟩ := ha
  obtain ⟨g, h3, h4⟩ := hb
  exact ⟨_, h1.append h3, fun p rest h => by rw [List.append_assoc]; exact h2 p _ fun q => h4 q rest h⟩

theorem CleanEvents.flatMap {α : Type} {c : Cfg} (f : α → List Event) (l : List α) (h : ∀ a ∈ l, CleanEvents c (f a)) :
    CleanEvents c (l.flatMap f) := by
  induction l with
  | nil => exact .nil c
  | cons a l ih =>
    rw [List.flatMap_cons]
    exact (h a (by simp)).append (ih fun b hb => h b (by simp [hb]))

theorem CleanEvents.notes {c : Cfg} {events : List Event} (h : CleanEvents c events) :
    ∀ n ∈ panelNotes c events, ∃ w bytes, n = .write w bytes := by
  obtain ⟨frames, h1, h2⟩ := h
  rw [panelNotes, h1.framesOf, ← List.append_nil frames]
  exact h2 _ [] fun q => writes_closePhase q

end Sys2Proof.Machine
end

