-- ==== Sys2Proof/Laws/PerInstr.lean ====
section
/-! SUPPORT. The round trip of the encodings, one lemma per constructor of Instr (spec/30_encoding.md R92, R100). -/

namespace Sys2Proof.Laws.RoundTrip

/-- A well-formed operation is what its code decodes to. -/
def Statement (i : Instr) : Prop := i.wellFormed = true → decode (encode i) = .ok i

theorem panelCreate : Statement .panelCreate := fun _ => by decide
theorem init : Statement .init := fun _ => by decide
theorem setBacklight : Statement .setBacklight := fun _ => by decide
theorem writeCommand : Statement .writeCommand := fun _ => by decide
theorem write : Statement .write := fun _ => by decide
theorem setWindow : Statement .setWindow := fun _ => by decide
theorem drawPixel : Statement .drawPixel := fun _ => by decide
theorem hline : Statement .hline := fun _ => by decide
theorem vline : Statement .vline := fun _ => by decide
theorem fillRect : Statement .fillRect := fun _ => by decide
theorem line : Statement .line := fun _ => by decide
theorem finishUpdate : Statement .finishUpdate := fun _ => by decide
theorem keypadPoll : Statement .keypadPoll := fun _ => by decide
theorem getBackBuffer : Statement .getBackBuffer := fun _ => by decide
theorem getFrontBuffer : Statement .getFrontBuffer := fun _ => by decide
theorem softwareReset : Statement .softwareReset := fun _ => by decide
theorem sleepOut : Statement .sleepOut := fun _ => by decide
theorem normalDisplayOn : Statement .normalDisplayOn := fun _ => by decide
theorem inversionOn : Statement .inversionOn := fun _ => by decide
theorem displayOn : Statement .displayOn := fun _ => by decide

theorem columnAddressSet (start stop : Half) : Statement (.columnAddressSet start stop) := fun _ => by
  simp [encode, decode, decodeWire, be16, decodeAddressSet, ofBytes_hi8_lo8]

theorem rowAddressSet (start stop : Half) : Statement (.rowAddressSet start stop) := fun _ => by
  simp [encode, decode, decodeWire, be16, decodeAddressSet, ofBytes_hi8_lo8]

theorem memoryWrite (payload : List Byte) : Statement (.memoryWrite payload) := fun h => by
  simp only [Instr.wellFormed, beq_iff_eq] at h
  simp [encode, decode, decodeWire, decodeMemoryWrite, h]

theorem pixelFormat (value : Byte) : Statement (.pixelFormat value) := fun _ => rfl
theorem memoryAccessControl (value : Byte) : Statement (.memoryAccessControl value) := fun _ => rfl

end Sys2Proof.Laws.RoundTrip
end

