-- ==== Sys2Proof/Tests/Slice0.lean ====
section
/-! SUPPORT. The model's own tests. Expected results are the vectors V… and the examples S… and P… of
spec/95_test_vectors.md, written out in that file's abbreviations; the words are those of spec/30_encoding.md. Last come
the witnesses that the hypotheses of the statements in Certificates/Slice0/Obligations.lean can be met. -/

namespace Sys2Proof.Machine.Tests

open Sys2Proof Sys2Proof.Machine

/-! ## The example configuration and the example panels (spec/95_test_vectors.md, opening) -/

def exCfg : Cfg where
  hasRst := true
  tRst1Ms := 50
  tRst2Ms := 50
  tRst3Ms := 150
  tSlpoutMs := 1
  tColmodMs := 2
  tMadctlMs := 3
  tInvonMs := 4
  tNoronMs := 5
  tFillMs := 6
  tDisponMs := 7
  colmodValue := 0x55
  madctlValue := 0x00
  originTable := fun t w h =>
    if t = .serial ∧ w = 240 ∧ h = 240 then some (0, 0)
    else if t = .serial ∧ w = 135 ∧ h = 240 then some (52, 40)
    else if t = .parallel ∧ w = 320 ∧ h = 240 then some (0, 0)
    else none
  gammaBetween := fun _ => 9514
  gammaFull := .d65535
  dmaThreshold := 32768
  widthMultiplier := .one
  buffering := .single
  fbCellsLessOne := 19199
  rowbufPixelsLessOne := 319
  xbufBytesLessOne := 65535
  tStrobeUs := 8
  keymap := fun p i => ⟨5 * p.val + i.val⟩

/-- WMUL = 2, DBUF = double (V81, V96). -/
def exDouble : Cfg := { exCfg with widthMultiplier := .two, buffering := .double }

def serial240 : State := { State.reset with created := true, transport := .serial, width := 240, height := 240 }
def serial135 : State :=
  { State.reset with created := true, transport := .serial, width := 135, height := 240, xstart := 52, ystart := 40 }
def parallel320 : State := { State.reset with created := true, transport := .parallel, width := 320, height := 240 }
def nullPanel : State := { State.reset with created := true, width := 240, height := 240 }
def faultedState : State := faulted State.reset 2

/-- The operand registers as a line's operands leave them (R110). -/
def args (s : State) (a0 : Word) (a1 : Word := 0) (a2 : Word := 0) (a3 : Word := 0) (a4 : Word := 0) : State :=
  { s with a0 := a0, a1 := a1, a2 := a2, a3 := a3, a4 := a4 }

/-- `F(cc; d0 ...)`, `F(cc)`, `F(-; d0 ...)` on path `p`. -/
def F (p : Path) (cc : Byte) (d : List Byte) : List Event :=
  [.cs true, .dc false, .xfer p [cc], .dc true, .xfer p d, .cs false]
def Fcmd (p : Path) (cc : Byte) : List Event := [.cs true, .dc false, .xfer p [cc], .dc true, .cs false]
def Fdata (p : Path) (d : List Byte) : List Event := [.cs true, .dc true, .xfer p d, .cs false]

/-! ## WellFormed: the one check there is (R100) -/

theorem test_odd_memory_write_is_ill_formed : (Instr.memoryWrite [0xF8, 0x00, 0x07]).wellFormed = false := by decide
theorem test_pixel_memory_write_is_well_formed : (Instr.memoryWrite [0xF8, 0x00]).wellFormed = true := by decide
theorem test_odd_memory_write_does_not_decode :
    decodeWire [0x2C, 0xF8, 0x00, 0x07] = .error (.wirePayload 0x2C 3) := by decide

/-! ## Decoding: every row's word, written out from R92 and R100 -/

theorem test_decode_host_rows :
    decodeHost 0x00000001 = .ok .panelCreate ∧ decodeHost 0x00000002 = .ok .init
      ∧ decodeHost 0x00000003 = .ok .setBacklight ∧ decodeHost 0x00000004 = .ok .writeCommand
      ∧ decodeHost 0x00000005 = .ok .write ∧ decodeHost 0x00000006 = .ok .setWindow
      ∧ decodeHost 0x00000007 = .ok .drawPixel ∧ decodeHost 0x00000008 = .ok .hline
      ∧ decodeHost 0x00000009 = .ok .vline ∧ decodeHost 0x0000000A = .ok .fillRect
      ∧ decodeHost 0x0000000B = .ok .line ∧ decodeHost 0x0000000C = .ok .finishUpdate
      ∧ decodeHost 0x0000000D = .ok .keypadPoll ∧ decodeHost 0x0000000E = .ok .getBackBuffer
      ∧ decodeHost 0x0000000F = .ok .getFrontBuffer := by decide

theorem test_decode_wire_rows :
    decodeWire [0x01] = .ok .softwareReset ∧ decodeWire [0x11] = .ok .sleepOut
      ∧ decodeWire [0x13] = .ok .normalDisplayOn ∧ decodeWire [0x21] = .ok .inversionOn
      ∧ decodeWire [0x29] = .ok .displayOn
      ∧ decodeWire [0x2A, 0x00, 0x0A, 0x01, 0x35] = .ok (.columnAddressSet 10 309)
      ∧ decodeWire [0x2B, 0x00, 0x28, 0x01, 0x17] = .ok (.rowAddressSet 40 279)
      ∧ decodeWire [0x2C] = .ok (.memoryWrite []) ∧ decodeWire [0x2C, 0x07, 0xE0] = .ok (.memoryWrite [0x07, 0xE0])
      ∧ decodeWire [0x3A, 0x55] = .ok (.pixelFormat 0x55) ∧ decodeWire [0x36, 0x00] = .ok (.memoryAccessControl 0) := by
  decide

theorem test_decode_rejects_by_name :
    decodeHost 0x00000000 = .error (.hostOpcode 0x00) ∧ decodeHost 0x00000010 = .error (.hostOpcode 0x10)
      ∧ decodeHost 0x000000FF = .error (.hostOpcode 0xFF) ∧ decodeHost 0x00000108 = .error (.highBits 0x108)
      ∧ decodeWire [] = .error .wireEmpty ∧ decodeWire [0xAB] = .error (.wireCommand 0xAB)
      ∧ decodeWire [0x29, 0x00] = .error (.wirePayload 0x29 1)
      ∧ decodeWire [0x2A, 0x00, 0x0A] = .error (.wirePayload 0x2A 2) := by decide

theorem test_table_words :
    decodeTableWord 32 0x0B = some .line ∧ decodeTableWord 8 0x2A = some (.columnAddressSet 0 0)
      ∧ decodeTableWord 8 0x3A = some (.pixelFormat 0) ∧ decodeTableWord 8 0x2C = some (.memoryWrite [])
      ∧ decodeTableWord 32 0x2A = none ∧ decodeTableWord 8 0x0B = none := by decide

/-! ## PANEL_CREATE -/

/-- R120's example. -/
theorem test_create_135 :
    let t := opPanelCreate exCfg (args State.reset 1 135 240)
    t.transport = .serial ∧ t.width = 135 ∧ t.height = 240 ∧ t.xstart = 52 ∧ t.ystart = 40 ∧ t.created = true
      ∧ t.out = [] := by decide

/-- V122, V118. -/
theorem test_create_unsupported_and_twice :
    (opPanelCreate exCfg (args State.reset 1 100 100)).out = [.diagUnsupportedDims .serial 100 100]
      ∧ statusWord (opPanelCreate exCfg (args State.reset 1 100 100)) = 0x00000006
      ∧ statusWord (opPanelCreate exCfg (args serial240 7 1 1)) = 0x00000305
      ∧ statusWord (opPanelCreate exCfg (args State.reset 3 240 240)) = 0x00000401 := by decide

/-! ## INIT -/

/-- P1's event list on a panel of one cell: 75 events less the 450 chunks and the window's other coordinates. -/
theorem test_init_one_cell :
    (opInit exCfg { serial240 with width := 1, height := 1 }).out
      = [.rst false, .rst true, .delayMs 50, .rst false, .delayMs 50, .rst true, .delayMs 150]
        ++ Fcmd .clocked 0x01 ++ [.delayMs 150] ++ Fcmd .clocked 0x11 ++ [.delayMs 1]
        ++ F .clocked 0x3A [0x55] ++ [.delayMs 2] ++ F .clocked 0x36 [0x00] ++ [.delayMs 3]
        ++ Fcmd .clocked 0x21 ++ [.delayMs 4] ++ Fcmd .clocked 0x13 ++ [.delayMs 5]
        ++ F .clocked 0x2A [0, 0, 0, 0] ++ F .clocked 0x2B [0, 0, 0, 0] ++ Fcmd .clocked 0x2C ++ Fdata .clocked [0, 0]
        ++ [.delayMs 6] ++ Fcmd .clocked 0x29 ++ [.delayMs 7] := by decide

/-- D13: NULL; R128: no reset line. -/
theorem test_init_null_and_no_reset_line :
    (opInit exCfg nullPanel).out = []
      ∧ (opInit { exCfg with hasRst := false } { serial240 with width := 0 }).out.head? = some (.cs true) := by decide

/-! ## SET_BACKLIGHT: V130 to V132 -/

theorem test_backlight :
    (opSetBacklight exCfg (args serial240 0)).out = [.bl 0] ∧ (opSetBacklight exCfg (args serial240 255)).blDuty = 65535
      ∧ (opSetBacklight exCfg (args serial240 0x100)).out = [.bl 0]
      ∧ (opSetBacklight exCfg (args nullPanel 255)).blDuty = 0 := by decide

/-! ## WRITE_COMMAND and WRITE: V20 to V27 -/

def pixels4 : Mem 8 := [(0, 0xF8), (1, 0x00), (2, 0x07), (3, 0xE0)]

theorem test_write_command :
    (opWriteCommand exCfg (args { serial240 with xbuf := [(0, 0x55)] } 0x3A 1)).out = F .clocked 0x3A [0x55]
      ∧ (opWriteCommand exCfg (args serial240 0x1AB 0)).out = Fcmd .clocked 0xAB
      ∧ (opWriteCommand exCfg (args { serial240 with xbuf := [(0, 0xAA), (1, 0xBB)] } 0 2)).out
        = Fdata .clocked [0xAA, 0xBB]
      ∧ (opWriteCommand exCfg (args serial240 0 0)).out = [.cs true, .dc true, .cs false] := by decide

theorem test_write :
    (opWrite exCfg (args { serial240 with xbuf := pixels4 } 4)).out = Fdata .clocked [0xF8, 0x00, 0x07, 0xE0]
      ∧ (opWrite exCfg (args { parallel320 with xbuf := pixels4 } 4)).out = F .strobed 0x2C [0xF8, 0x00, 0x07, 0xE0]
      ∧ (opWrite exCfg (args serial240 0)).out = []
      ∧ statusWord (opWrite exCfg (args serial240 65537)) = 0x00000505 := by decide

/-- V30, V31: the comparison with DMA_THRESHOLD is strict. -/
theorem test_transfer_path :
    transferPath exCfg .serial 32768 = .clocked ∧ transferPath exCfg .serial 32769 = .block
      ∧ transferPath exCfg .parallel 40000 = .block ∧ transferPath exCfg .parallel 1 = .strobed := by decide

/-! ## SET_WINDOW: V10 to V18 -/

theorem test_set_window_accepted :
    (opSetWindow exCfg (args serial240 10 20 30 40)).out
        = F .clocked 0x2A [0x00, 0x0A, 0x00, 0x1E] ++ F .clocked 0x2B [0x00, 0x14, 0x00, 0x28] ++ Fcmd .clocked 0x2C
      ∧ (opSetWindow exCfg (args serial135 0 0 134 239)).out
        = F .clocked 0x2A [0x00, 0x34, 0x00, 0xBA] ++ F .clocked 0x2B [0x00, 0x28, 0x01, 0x17] ++ Fcmd .clocked 0x2C
      ∧ (opSetWindow exCfg (args parallel320 1 2 300 239)).out
        = F .strobed 0x2A [0x00, 0x01, 0x01, 0x2C] ++ F .strobed 0x2B [0x00, 0x02, 0x00, 0xEF]
      ∧ (opSetWindow exCfg (args serial240 0x10005 0 0x10005 0)).out
        = F .clocked 0x2A [0x00, 0x05, 0x00, 0x05] ++ F .clocked 0x2B [0, 0, 0, 0] ++ Fcmd .clocked 0x2C := by decide

theorem test_set_window_rejected :
    opSetWindow exCfg (args serial135 0 0 135 239) = args serial135 0 0 135 239
      ∧ opSetWindow exCfg (args serial240 5 0 4 0) = args serial240 5 0 4 0
      ∧ opSetWindow exCfg (args serial240 0 240 0 240) = args serial240 0 240 0 240
      ∧ (opSetWindow exCfg (args nullPanel 0 0 0 0)).out = [] := by decide

/-! ## Fills: V40 to V53 -/

theorem test_draw_pixel :
    (opDrawPixel exCfg (args serial240 3 4 0xF800)).out
        = F .clocked 0x2A [0x00, 0x03, 0x00, 0x03] ++ F .clocked 0x2B [0x00, 0x04, 0x00, 0x04] ++ Fcmd .clocked 0x2C
          ++ Fdata .clocked [0xF8, 0x00]
      ∧ (opDrawPixel exCfg (args parallel320 3 4 0xF800)).out
        = F .strobed 0x2A [0x00, 0x03, 0x00, 0x03] ++ F .strobed 0x2B [0x00, 0x04, 0x00, 0x04]
          ++ F .strobed 0x2C [0xF8, 0x00]
      ∧ (opDrawPixel exCfg (args serial240 240 0 0xFFFF)).out = [] := by decide

/-- V45, V46, V51. -/
theorem test_hline :
    (opHline exCfg (args serial240 200 0 40 1)).out
        = F .clocked 0x2A [0x00, 0xC8, 0x00, 0xEF] ++ F .clocked 0x2B [0, 0, 0, 0] ++ Fcmd .clocked 0x2C
          ++ Fdata .clocked (List.replicate 40 [0x00, 0x01]).flatten
      ∧ (opHline exCfg (args serial240 200 0 41 1)).out = [] ∧ (opHline exCfg (args serial240 0 0 256 0xABCD)).out = [] := by
  decide

theorem test_vline :
    (opVline exCfg (args serial240 7 0 3 0x001F)).out
        = F .clocked 0x2A [0x00, 0x07, 0x00, 0x07] ++ F .clocked 0x2B [0x00, 0x00, 0x00, 0x02] ++ Fcmd .clocked 0x2C
          ++ Fdata .clocked [0x00, 0x1F, 0x00, 0x1F, 0x00, 0x1F]
      ∧ (opVline exCfg (args serial240 7 0 0 0x001F)).out = [] := by decide

theorem test_fill_rect :
    (opFillRect exCfg (args serial240 1 1 3 2 0xFFFF)).out
        = F .clocked 0x2A [0x00, 0x01, 0x00, 0x03] ++ F .clocked 0x2B [0x00, 0x01, 0x00, 0x02] ++ Fcmd .clocked 0x2C
          ++ Fdata .clocked (List.replicate 12 0xFF)
      ∧ (opFillRect exCfg (args serial240 0 0 0 5 0)).out = [] := by decide

/-- V43, V44, V50, V52: the chunks of 130, 300, 128 and 57600 pixels. -/
theorem test_chunks :
    chunkSizes 130 = [128, 2] ∧ chunkSizes 300 = [128, 128, 44] ∧ chunkSizes 128 = [128] ∧ chunkSizes 0 = []
      ∧ 57600 / stagePixels = 450 ∧ 57600 % stagePixels = 0 := by decide

/-! ## LINE: V60 to V79 -/

def H (x y n : Int) : Run := ⟨x, y, n⟩
/-- `V(x, y, n)` in loop coordinates: the run starts at major coordinate y. -/
def V (x y n : Int) : Run := ⟨y, x, n⟩

theorem test_line_shallow :
    lineRuns 0 0 4 2 = [H 0 0 2, H 2 1 2, H 4 2 1] ∧ lineRuns 4 2 0 0 = [H 0 0 2, H 2 1 2, H 4 2 1]
      ∧ lineRuns 0 2 4 0 = [H 0 2 2, H 2 1 2, H 4 0 1] ∧ lineRuns 0 0 5 0 = [H 0 0 6] ∧ lineRuns 3 3 3 3 = [H 3 3 1]
      ∧ lineRuns 10 10 4 8 = [H 4 8 2, H 6 9 3, H 9 10 2] ∧ lineRuns 0 0 5 1 = [H 0 0 3, H 3 1 3]
      ∧ lineRuns 0 0 5 4 = [H 0 0 1, H 1 1 1, H 2 2 2, H 4 3 1, H 5 4 1]
      ∧ lineRuns 0 0 9 2 = [H 0 0 3, H 3 1 4, H 7 2 3] ∧ lineRuns (-2) 0 2 2 = [H (-2) 0 2, H 0 1 2, H 2 2 1]
      ∧ lineRuns 0 5 5 0 = [H 0 5 1, H 1 4 1, H 2 3 1, H 3 2 1, H 4 1 1, H 5 0 1] := by decide

theorem test_line_steep :
    lineRuns 0 0 2 4 = [V 0 0 2, V 1 2 2, V 2 4 1] ∧ lineRuns 2 4 0 0 = [V 0 0 2, V 1 2 2, V 2 4 1]
      ∧ lineRuns 0 0 0 5 = [V 0 0 6] ∧ lineRuns 0 0 3 7 = [V 0 0 2, V 1 2 2, V 2 4 2, V 3 6 2]
      ∧ lineRuns 0 0 1 6 = [V 0 0 4, V 1 4 3] ∧ lineSteep 0 0 5 5 = false ∧ lineSteep 0 0 2 4 = true := by decide

/-- V77 and one run of V78 that is drawn. -/
theorem test_line_is_not_clipped :
    (opLine exCfg (args serial240 (signedOperand (-2)) 1 3 1 0xFFFF)).out = []
      ∧ (opLine exCfg (args serial240 (signedOperand (-2)) 0 2 2 0xFFFF)).out
        = F .clocked 0x2A [0, 0, 0, 1] ++ F .clocked 0x2B [0, 1, 0, 1] ++ Fcmd .clocked 0x2C
          ++ Fdata .clocked [0xFF, 0xFF, 0xFF, 0xFF]
          ++ F .clocked 0x2A [0, 2, 0, 2] ++ F .clocked 0x2B [0, 2, 0, 2] ++ Fcmd .clocked 0x2C
          ++ Fdata .clocked [0xFF, 0xFF] := by decide

/-! ## Pixel converter: V3, V4, V6, V8, V9d -/

theorem test_rgb565 :
    rgb565 255 0 0 = 0xF800 ∧ stored 255 0 0 = 0x00F8 ∧ rgb565 0 255 0 = 0x07E0 ∧ rgb565 8 4 8 = 0x0821
      ∧ rgb565 7 3 7 = 0 ∧ stored 0x12 0x34 0x56 = 0xAA11 ∧ stored 200 100 50 = 0x26CB := by decide

/-! ## FINISH_UPDATE: V80, V81, V85 to V88 -/

def palette80 : Mem 8 :=
  [(0, 0), (1, 0), (2, 0), (3, 255), (4, 255), (5, 255), (6, 255), (7, 0), (8, 0), (9, 0x12), (10, 0x34), (11, 0x56)]

theorem test_centre :
    centre 240 1 = 119 ∧ centre 240 2 = 119 ∧ centre 320 240 = 40 ∧ centre 135 240 = 0 ∧ centre 240 240 = 0
      ∧ centre 240 160 = 40 := by decide

theorem test_finish_update_faults :
    (opFinishUpdate exCfg (args serial240 0 240 161)).faultcode = 6
      ∧ (opFinishUpdate exCfg (args serial240 0 321 1)).faultcode = 7
      ∧ (opFinishUpdate exCfg (args serial240 1 1 1)).faultcode = 6
      ∧ (opFinishUpdate exCfg (args State.reset 9 9999 9999)).faultcode = 2 := by decide

/-- V80. -/
theorem test_finish_update_rows :
    (opFinishUpdate exCfg (args { serial240 with pal := palette80, fb0 := [(0, 0x0100), (1, 0x0302)] } 0 2 2)).out
      = F .clocked 0x2A [0x00, 0x77, 0x00, 0x78] ++ F .clocked 0x2B [0x00, 0x77, 0x00, 0x77] ++ Fcmd .clocked 0x2C
          ++ Fdata .clocked [0x00, 0x00, 0xFF, 0xFF]
        ++ F .clocked 0x2A [0x00, 0x77, 0x00, 0x78] ++ F .clocked 0x2B [0x00, 0x78, 0x00, 0x78] ++ Fcmd .clocked 0x2C
          ++ Fdata .clocked [0xF8, 0x00, 0x11, 0xAA] := by decide
/-- V81. -/
theorem test_finish_update_double :
    let t := opFinishUpdate exDouble
      (args { serial240 with pal := [(3, 0), (4, 0), (5, 255), (6, 0), (7, 255), (8, 0)], fb1 := [(0, 0x0201)] } 1 1 1)
    t.out = F .clocked 0x2A [0x00, 0x77, 0x00, 0x78] ++ F .clocked 0x2B [0x00, 0x77, 0x00, 0x77] ++ Fcmd .clocked 0x2C
        ++ Fdata .clocked [0x00, 0x1F, 0x07, 0xE0]
      ∧ t.fbSel = true ∧ lutCell t 1 = 0x1F00 := by decide

/-! ## GET_BACK_BUFFER, GET_FRONT_BUFFER: V95, V96 -/

theorem test_buffers :
    (opGetBackBuffer exCfg { State.reset with r0 := 7 }).r0 = 0 ∧ (opGetFrontBuffer exCfg State.reset).r0 = 0
      ∧ (opGetBackBuffer exDouble State.reset).r0 = 0 ∧ (opGetFrontBuffer exDouble State.reset).r0 = 1
      ∧ (opGetBackBuffer exDouble { State.reset with fbSel := true }).r0 = 1
      ∧ (opGetFrontBuffer exDouble { State.reset with fbSel := true }).r0 = 0 := by decide

/-! ## KEYPAD_POLL: V101, V104 -/

def levelsOf (p1 p2 : List (Fin 5)) : KeyMatrix :=
  #v[Vector.ofFn fun i => decide (i ∈ p1), Vector.ofFn fun i => decide (i ∈ p2)]

theorem test_poll_first :
    let t := opKeypadPoll exCfg { State.reset with levels := levelsOf [0, 4] [1] }
    t.out = [.kpcfg, .strobe 0b01, .delayUs 8, .key .down ⟨0⟩, .key .down ⟨4⟩, .strobe 0b10, .delayUs 8,
        .key .down ⟨6⟩, .strobe 0b00]
      ∧ scanWord t = 0x00000211 ∧ statusWord t = 0x00000008 := by decide

theorem test_poll_second :
    let t := opKeypadPoll exCfg
      { State.reset with kpInit := true, scan := levelsOf [0, 4] [1], levels := levelsOf [4] [1, 3] }
    t.out = [.strobe 0b01, .delayUs 8, .key .up ⟨0⟩, .strobe 0b10, .delayUs 8, .key .down ⟨8⟩, .strobe 0b00]
      ∧ scanWord t = 0x00000A10 := by decide

/-! ## WIRE rows (R100, R101): the frame each sends -/

def wireFrames (o : Result) : List WireFrame :=
  match o with
  | .next s => framesOf s.out
  | _ => []

theorem test_wire_actions :
    wireFrames (exec .softwareReset serial240) = [⟨some 0x01, []⟩]
      ∧ wireFrames (exec .sleepOut serial240) = [⟨some 0x11, []⟩]
      ∧ wireFrames (exec .normalDisplayOn serial240) = [⟨some 0x13, []⟩]
      ∧ wireFrames (exec .inversionOn serial240) = [⟨some 0x21, []⟩]
      ∧ wireFrames (exec .displayOn parallel320) = [⟨some 0x29, []⟩] := by decide

theorem test_wire_payloads :
    wireFrames (exec (.columnAddressSet 10 309) serial240) = [⟨some 0x2A, [0x00, 0x0A, 0x01, 0x35]⟩]
      ∧ wireFrames (exec (.rowAddressSet 40 279) serial240) = [⟨some 0x2B, [0x00, 0x28, 0x01, 0x17]⟩]
      ∧ wireFrames (exec (.memoryWrite []) serial240) = [⟨some 0x2C, []⟩]
      ∧ wireFrames (exec (.memoryWrite [0x07, 0xE0]) parallel320) = [⟨some 0x2C, [0x07, 0xE0]⟩]
      ∧ wireFrames (exec (.pixelFormat 0x55) serial240) = [⟨some 0x3A, [0x55]⟩]
      ∧ wireFrames (exec (.memoryAccessControl 0) serial240) = [⟨some 0x36, [0x00]⟩]
      ∧ exec .displayOn nullPanel = .next nullPanel := ⟨by decide, by decide, by decide, by decide, by decide, by decide, rfl⟩

/-! ## Faults and host accesses: V110, V113, V115, V119, V121, V123, V124 -/

theorem test_no_panel : exec .hline State.reset = .next faultedState ∧ statusWord faultedState = 0x00000201 :=
  ⟨rfl, by decide⟩

theorem test_illegal_command :
    step { State.reset with pending := [.writeReg 0 0x108] } = .next (faulted State.reset 1)
      ∧ step { State.reset with pending := [.writeReg 0 0] } = .next (faulted State.reset 1)
      ∧ step { faultedState with pending := [.writeReg 0 0x0D] } = .fault .commandWhileFaulted := ⟨rfl, rfl, rfl⟩

theorem test_host_registers :
    step { faultedState with pending := [.writeReg 3 77] } = .next { faultedState with a0 := 77 }
      ∧ step { State.reset with pending := [.readReg 15] } = .refused (.reservedRegister 15)
      ∧ step { serial240 with pending := [.writeReg 9 5] } = .next serial240
      ∧ step { serial240 with pending := [.readReg 9] } = .next { serial240 with answers := [240] } :=
  ⟨rfl, rfl, rfl, rfl⟩

theorem test_host_memory :
    step { State.reset with pending := [.writeMem .pal 767 0xAB] } = .next { State.reset with pal := [(767, 0xAB)] }
      ∧ step { State.reset with pending := [.writeMem .pal 768 0] } = .refused (.memoryIndex .pal 768)
      ∧ step { State.reset with pending := [.writeMem .pal 0 0x100] } = .refused (.cellWidth .pal)
      ∧ step { State.reset with pending := [.writeMem .lut 0 0] } = .refused .lutWrite := ⟨rfl, rfl, rfl, rfl⟩

/-- R270 out of the faulted state. -/
theorem test_reset_clears_the_fault :
    step { faultedState with pending := [.reset], pal := [(0, 1)] }
      = .next { State.reset with epoch := 1, rowbufGen := 1, stageGen := 1 } := rfl

/-! ## The panel: V49's six cells -/

theorem test_panel_after_fill :
    let ops := [(.fillRect, (opFillRect exCfg (args serial240 1 1 3 2 0xFFFF)).out)]
    panelAt exCfg ops 1 1 = some 0xFFFF ∧ panelAt exCfg ops 3 2 = some 0xFFFF ∧ panelAt exCfg ops 0 1 = none
      ∧ panelAt exCfg ops 4 1 = none ∧ panelAt exCfg ops 1 3 = none := by decide

/-- U20: DRAW_PIXEL, then WRITE; and a window whose end wraps when the origin is added (notes/assumptions/19.md). -/
theorem test_panel_after_unlanded_pixels :
    let pixel := (Instr.drawPixel, (opDrawPixel exCfg (args serial240 3 4 0xF800)).out)
    let loose := (Instr.write, (opWrite exCfg (args { serial240 with xbuf := pixels4 } 4)).out)
    let wrapped := (Instr.hline, (opHline exCfg (args { serial240 with xstart := 0xFFFE } 0 0 3 0)).out)
    panelAt exCfg [pixel] 3 4 = some 0xF800 ∧ panelAt exCfg [pixel, loose] 3 4 = none
      ∧ panelAt exCfg [loose, pixel] 3 4 = some 0xF800 ∧ panelAt exCfg [pixel, wrapped] 3 4 = none := by decide

/-! ## Witnesses: the hypotheses of every statement that has some are met together -/

/-- A state with one pending list. -/
def doing (s : State) (actions : List HostAction) : State := { s with pending := actions }

/-- DecodeOfEncodeIsTheInstruction, EncodeOfDecodeIsTheCode, AssembledLineIsRegisterWrites. -/
theorem meets_encodings :
    (Instr.memoryWrite [0xF8, 0x00]).wellFormed = true ∧ decode (.wire [0x2B, 0, 1, 0, 2]) = .ok (.rowAddressSet 1 2)
      ∧ decode (.host 0x0F) = .ok .getFrontBuffer ∧ encode .hline = .host 8 := by decide

/-- OnlyFifteenCommandWordsAreLegal and the first clause of FaultCausesAndTheirCodes: each of the three causes at its
edges, and a legal word; StepRunsTheWrittenCommand: its three clauses. -/
theorem meets_command_words :
    (doing State.reset [.writeReg 0 0x108]).fault = false ∧ (0x108 : Word).extractLsb' 8 24 ≠ 0
      ∧ (0x00 : Word).toNat % 256 = 0x00 ∧ 0x10 ≤ (0x10 : Word).toNat % 256 ∧ 0x10 ≤ (0xFF : Word).toNat % 256
      ∧ (∃ i, decodeHost 0x01 = .ok i) ∧ (∃ i, decodeHost 0x0F = .ok i)
      ∧ decodeHost 0x10 = .error (.hostOpcode 0x10) ∧ (doing faultedState [.writeReg 0 1]).fault = true :=
  ⟨rfl, by decide, by decide, by decide, by decide, ⟨_, rfl⟩, ⟨_, rfl⟩, rfl, rfl⟩

/-- StepRunsAWireFrameOrIdles, PlacedWordIsWhatStepRuns. -/
theorem meets_placed :
    decodeWire [0x36, 0x00] = .ok (.memoryAccessControl 0) ∧ decodeTableWord 32 0x0F = some .getFrontBuffer
      ∧ decodeTableWord 8 0x2B = some (.rowAddressSet 0 0) ∧ State.reset.fault = false ∧ State.reset.pending = [] := by
  decide

/-- OutputStreamOnlyGrows, EveryStepKeepsTheInvariant. -/
theorem meets_steps :
    ∃ s t : State, Inv s ∧ step s = .next t ∧ (∀ rest, s.pending ≠ .reset :: rest) ∧ t ≠ s :=
  ⟨doing State.reset [.readReg 1], _, ⟨rfl, rfl, rfl, rfl, fun _ => ⟨rfl, rfl⟩, rfl, by decide, by decide, rfl, rfl,
    fun _ => by decide, fun _ => rfl⟩, rfl, fun _ h => by simp [doing] at h, by decide⟩

/-- FaultCausesAndTheirCodes: the clauses on the panel, the transport and the three operations that read the
configuration, each at its edge. -/
theorem meets_fault_causes :
    Instr.line ∈ needsPanel ∧ State.reset.created = false ∧ serial240.created = true
      ∧ 2 < (args State.reset 3).a0.toNat
      ∧ exCfg.xbufBytes < (args serial240 0 65537).a1.toNat ∧ exCfg.xbufBytes < (args serial240 65537).a0.toNat
      ∧ exCfg.nbuf ≤ (args serial240 1).a0.toNat ∧ (args serial240 0).a0.toNat < exCfg.nbuf
      ∧ exCfg.rowbufPixels < (u16 (args serial240 0 321).a1).toNat * exCfg.wmul
      ∧ (u16 (args serial240 0 240 161).a1).toNat * exCfg.wmul ≤ exCfg.rowbufPixels
      ∧ 2 * exCfg.fbCells < (u16 (args serial240 0 240 161).a1).toNat * exCfg.wmul * (u16 (args serial240 0 240 161).a2).toNat
      ∧ ¬ 2 * exCfg.fbCells < (u16 (args serial240 0 240 160).a1).toNat * exCfg.wmul * (u16 (args serial240 0 240 160).a2).toNat := by
  decide

/-- The statements about any operation that answers a next state: TakingAFaultChangesOnlyStatus,
OperandsSurviveEveryOperation, OperationsLeaveHostMemoryAlone, DescriptorIsFixedOnceCreated, DisplayAndKeypadAreSeparate,
the last clause of FaultCausesAndTheirCodes. -/
theorem meets_exec :
    (∃ t, exec .hline State.reset = .next t ∧ t.fault = true)
      ∧ (∃ t, exec (.pixelFormat 0x55) serial240 = .next t ∧ t.out ≠ [])
      ∧ (∃ t, exec .keypadPoll serial240 = .next t ∧ t.kpInit = true)
      ∧ ∃ t, exec .getBackBuffer serial240 = .next t :=
  ⟨⟨_, rfl, rfl⟩, ⟨_, rfl, by decide⟩, ⟨_, rfl, rfl⟩, _, rfl⟩

/-- FaultedBlockOnlyServesHostAccess: every clause, at the edges of its ranges. -/
theorem meets_faulted :
    faultedState.fault = true
      ∧ spaceExists Config.cfg .pal = true ∧ 767 < spaceCells Config.cfg .pal ∧ fitsCell .pal 0xFF = true
      ∧ spaceExists Config.cfg .lut = true ∧ 255 < spaceCells Config.cfg .lut
      ∧ spaceExists Config.cfg .fb0 = true ∧ 0 < spaceCells Config.cfg .fb0 ∧ fitsCell .fb0 0xFFFF = true
      ∧ spaceExists Config.cfg .xbuf = true ∧ 0 < spaceCells Config.cfg .xbuf
      ∧ (∃ t, step (doing faultedState [.readReg 14]) = .next t)
      ∧ (∃ t, step (doing faultedState [.writeReg 7 5]) = .next t)
      ∧ (∃ t, step (doing faultedState [.writeReg 3 5]) = .next t) :=
  ⟨rfl, rfl, by decide, by decide, rfl, by decide, rfl, Nat.succ_pos _, by decide, rfl, Nat.succ_pos _, ⟨_, rfl⟩,
    ⟨_, rfl⟩, _, rfl⟩

/-- RegisterReadAfterWrite, ReadOnlyAndReservedRegisters, CellReadAfterWrite, ResetIsTotal: their pending lists. The
spaces' conditions are those of meets_faulted. -/
theorem meets_host_lists :
    (doing State.reset [.writeReg 7 1, .readReg 14]).pending = .writeReg 7 1 :: .readReg 14 :: []
      ∧ (doing State.reset [.writeReg 14 1]).pending = .writeReg 14 1 :: []
      ∧ (doing State.reset [.readReg 15]).pending = .readReg 15 :: []
      ∧ (doing State.reset [.writeMem .pal 767 0xFF, .readMem .lut 255]).pending
        = .writeMem .pal 767 0xFF :: .readMem .lut 255 :: []
      ∧ (doing faultedState [.reset]).pending = .reset :: [] := by decide

/-- AccessesWithoutMeaningAreRefused: each clause. -/
theorem meets_refused_accesses :
    spaceExists exCfg .pal = true ∧ spaceCells exCfg .pal ≤ 768 ∧ Space.pal ≠ .lut ∧ exCfg.nbuf = 1
      ∧ spaceExists exDouble .fb1 = true ∧ spaceCells exDouble .fb1 ≤ 19200 := by decide

/-- SetWindowIssuesTwoAddressSets; NullTransportSendsNothing; LineDrawsItsRuns, both clauses. -/
theorem meets_panels :
    serial240.created = true ∧ serial240.transport ≠ .null ∧ nullPanel.created = true ∧ nullPanel.transport = .null
      ∧ exec .drawPixel (args nullPanel 240) = .next (args nullPanel 240) ∧ State.reset.created = false :=
  ⟨rfl, by decide, rfl, rfl, rfl, rfl⟩

/-- LineRunsMatchTheClosedForm: its three clauses. -/
theorem meets_line :
    lineSteep 0 0 4 2 = false ∧ (0 : Int) ≤ 4 ∧ lineSteep 4 2 0 0 = false ∧ (0 : Int) < 4 ∧ lineSteep 3 3 3 3 = false
      ∧ lineSteep 0 0 2 4 = true := by decide

/-- FinishUpdateSendsTheCentredFrame and FinishUpdatePaintsTheFrame: a frame that passes the checks, on a panel. -/
theorem meets_finish_update :
    let s := args serial240 0 240 160
    s.created = true ∧ s.transport ≠ .null ∧ 240 = (u16 s.a1).toNat * exCfg.wmul ∧ 160 = (u16 s.a2).toNat
      ∧ s.a0.toNat < exCfg.nbuf ∧ 240 ≤ exCfg.rowbufPixels ∧ 240 * 160 ≤ 2 * exCfg.fbCells ∧ 240 ≤ s.width.toNat
      ∧ s.xstart.toNat + s.width.toNat ≤ 65536 ∧ s.ystart.toNat + s.height.toNat ≤ 65536 := by decide

/-- OneByOneFrameIsCentred. -/
theorem meets_one_by_one :
    let s := args serial240 0 1 1
    exCfg.widthMultiplier = .one ∧ s.created = true ∧ s.transport ≠ .null ∧ s.width = 240 ∧ s.height = 240
      ∧ s.xstart = 0 ∧ s.ystart = 0 ∧ s.a0 = 0 ∧ s.a1 = 1 ∧ s.a2 = 1 := by decide

/-- BufferFlagTogglesOncePerFrame: an operation that is no FINISH_UPDATE, a FINISH_UPDATE that takes a fault, and one that
takes none in any configuration. -/
theorem meets_toggle :
    (∃ t, exec .getBackBuffer serial240 = .next t) ∧ serial240.fault = false
      ∧ (∃ t, exec .finishUpdate State.reset = .next t ∧ State.reset.fault = false ∧ t.fault = true)
      ∧ ∃ t, exec .finishUpdate serial240 = .next t ∧ t.fault = false := by
  refine ⟨⟨_, rfl⟩, rfl, ⟨_, rfl, rfl, rfl⟩, _, rfl, ?_⟩
  rw [opFinishUpdate_passes Config.cfg serial240 0 0 rfl (Nat.zero_mul _).symm rfl
    (by unfold Cfg.nbuf; cases Config.cfg.buffering <;> decide) (Nat.zero_le _) (Nat.zero_le _)]
  show (toggleBuffers Config.cfg (convertPalette serial240)).fault = false
  rw [toggleBuffers_eq]
  rfl

/-- OperationsCommuteWithPolls. -/
theorem meets_commute :
    ∃ t u t' u', exec .hline State.reset = .next t ∧ exec .keypadPoll t = .next u
      ∧ exec .keypadPoll State.reset = .next t' ∧ exec .hline t' = .next u' := ⟨_, _, _, _, rfl, rfl, rfl, rfl⟩

/-- GeneratedPixelWritesAreWindowed, FillRectPaintsItsRectangle: a rectangle in the panel's last corner. -/
theorem meets_fill_rect :
    let s := args serial135 134 239 1 1
    Instr.fillRect ∈ generatesPixels ∧ s.created = true ∧ s.transport ≠ .null ∧ 1 ≤ (u16 s.a2).toNat
      ∧ 1 ≤ (u16 s.a3).toNat ∧ (u16 s.a0).toNat + (u16 s.a2).toNat ≤ s.width.toNat
      ∧ (u16 s.a1).toNat + (u16 s.a3).toNat ≤ s.height.toNat ∧ s.xstart.toNat + s.width.toNat ≤ 65536
      ∧ s.ystart.toNat + s.height.toNat ≤ 65536 := by decide

/-- PanelCreateCompletes: the least and the greatest legal transport. -/
theorem meets_create :
    State.reset.created = false ∧ (args State.reset 0 240 240).a0.toNat ≤ 2 ∧ (args State.reset 2 320 240).a0.toNat ≤ 2 := by
  decide

/-- RegisterNumbersReadTheirContents: the first and the last number of its list. -/
theorem meets_register_numbers :
    (doing serial135 [.readReg 0]).pending = .readReg 0 :: [] ∧ (doing serial135 [.readReg 13]).pending = .readReg 13 :: []
      ∧ step (doing serial135 [.readReg 11]) = .next { serial135 with answers := [52] } := ⟨rfl, rfl, rfl⟩

/-- LineRunsAreCoalesced: two consecutive runs. -/
theorem meets_coalesced : (lineRuns 0 0 6 1)[0]? = some (H 0 0 4) ∧ (lineRuns 0 0 6 1)[1]? = some (H 4 1 3) := by decide

/-- PixelsWithoutALandingRuleLeaveNothingKnown: a WRITE of one byte in any configuration, and the least wrap. -/
theorem meets_unlanded :
    (let s := args serial240 1
     s.created = true ∧ s.transport ≠ .null ∧ 1 ≤ s.a0.toNat ∧ s.a0.toNat ≤ Config.cfg.xbufBytes)
      ∧ (let s := args { serial240 with xstart := 0xFFFF } 0 0 2
         s.created = true ∧ s.transport ≠ .null ∧ 1 ≤ (u16 s.a2).toNat
           ∧ (u16 s.a0).toNat + (u16 s.a2).toNat ≤ s.width.toNat ∧ (u16 s.a1).toNat < s.height.toNat
           ∧ s.xstart.toNat + (u16 s.a0).toNat < 65536
           ∧ 65536 < s.xstart.toNat + (u16 s.a0).toNat + (u16 s.a2).toNat) :=
  ⟨⟨rfl, by decide, by decide, Nat.succ_le_succ (Nat.zero_le _)⟩, by decide⟩

end Sys2Proof.Machine.Tests
end

section
/-! PROOFS. What a step does by the host's list (spec/00_scope.md R16), and the statements on a step that follow. -/

namespace Sys2Proof.Machine

/-- R16: with nothing pending the block idles. -/
theorem step_of_pending_nil {s : State} (hp : s.pending = []) : step s = .next s := by
  simp only [step, stepHost, hp]

/-- The head of the host's list is taken off and performed. -/
theorem step_of_pending_cons {s : State} {a : HostAction} {rest : List HostAction} (hp : s.pending = a :: rest) :
    step s = perform a { s with pending := rest } := by
  simp only [step, stepHost, hp]

@[simp] theorem perform_wireFrame (frame : List Byte) (s : State) :
    perform (.wireFrame frame) s = runWireFrame frame s := rfl

/-- R100: a frame of the table runs as its row while FAULT = 0. -/
theorem runWireFrame_of_decode {frame : List Byte} {i : Instr} {s : State} (hf : s.fault = false)
    (hd : decodeWire frame = .ok i) : runWireFrame frame s = exec i s := by
  simp [runWireFrame, hf, hd]

/-- Settles O7: the step performs the head of the list, a frame that decodes is run as its row, and an empty list
leaves the state as it is. -/
theorem stepRunsAWireFrameOrIdles : Obligations.StepRunsAWireFrameOrIdles := by
  refine ⟨fun s f rest i hp hf hd => ?_, fun s hp => step_of_pending_nil hp⟩
  calc step s = perform (.wireFrame f) { s with pending := rest } := step_of_pending_cons hp
    _ = runWireFrame f { s with pending := rest } := perform_wireFrame f _
    _ = exec i { s with pending := rest } := runWireFrame_of_decode hf hd

end Sys2Proof.Machine
end

section
/-! PROOFS. The host's port (spec/10_state.md R23, R27, R28; spec/20_memory.md R61): what each register number and each
action does, and the statements on registers and on a written command that follow. -/

namespace Sys2Proof.Machine

/-! ## Registers -/

/-- R27: every register number below 15 can be read. -/
theorem exists_readReg (s : State) {n : Nat} (hn : n < 15) : ∃ v, readReg s n = some v := by
  interval_cases n <;> exact ⟨_, rfl⟩

/-- R28: no reserved number can be read. -/
theorem readReg_reserved (s : State) {n : Nat} (hn : 15 ≤ n) : readReg s n = none := by
  obtain ⟨k, rfl⟩ := Nat.exists_eq_add_of_le' hn
  rfl

theorem hostReadReg_of_readReg {s : State} {n : Nat} {v : Word} (h : readReg s n = some v) :
    hostReadReg n s = .next (answer v s) := by
  simp only [hostReadReg, h]

theorem hostReadReg_reserved (s : State) {n : Nat} (hn : 15 ≤ n) :
    hostReadReg n s = .refused (.reservedRegister n) := by
  simp only [hostReadReg, readReg_reserved s hn]

/-- Outside A0..A4 a write is ignored below 15 and refused from 15 on (R27, R28). -/
theorem hostWriteReg_not_operand {n : Nat} (v : Word) (s : State) (hn : n < 3 ∨ 7 < n) :
    hostWriteReg n v s = if n < 15 then .next s else .refused (.reservedRegister n) := by
  rcases hn with hn | hn
  · interval_cases n <;> rfl
  · obtain ⟨k, rfl⟩ := Nat.exists_eq_add_of_le' hn
    rfl

/-- A write to one of A0..A4 is read back, and every other number reads as before (R21, R27). -/
theorem hostWriteReg_operand {n : Nat} (v : Word) (s : State) (h3 : 3 ≤ n) (h7 : n ≤ 7) :
    ∃ t, hostWriteReg n v s = .next t ∧ t.pending = s.pending ∧ t.answers = s.answers
      ∧ ∀ m < 15, readReg t m = if m = n then some v else readReg s m := by
  interval_cases n <;> exact ⟨_, rfl, rfl, rfl, fun m hm => by interval_cases m <;> rfl⟩

/-! ## Actions -/

theorem perform_writeReg_cmd (w : Word) (s : State) : perform (.writeReg 0 w) s = runCommand w s := rfl

theorem perform_writeReg {n : Nat} (v : Word) (s : State) (hn : n ≠ 0) :
    perform (.writeReg n v) s = hostWriteReg n v s := if_neg hn

theorem perform_readReg (n : Nat) (s : State) : perform (.readReg n) s = hostReadReg n s := rfl

/-- R242: no command while FAULT = 1. -/
theorem runCommand_of_fault {s : State} (w : Word) (hf : s.fault = true) :
    runCommand w s = .fault .commandWhileFaulted := by
  simp [runCommand, hf]

/-- R94: a word that names no operation takes the fault IllegalCommand. -/
theorem runCommand_of_decode_error {w : Word} {e : DecodeError} {s : State} (hf : s.fault = false)
    (hd : decodeHost w = .error e) : runCommand w s = .next (raise .illegalCommand s) := by
  simp [runCommand, hf, hd]

/-- R91: a word that names an operation runs it. -/
theorem runCommand_of_decode {w : Word} {i : Instr} {s : State} (hf : s.fault = false) (hd : decodeHost w = .ok i) :
    runCommand w s = exec i s := by
  simp [runCommand, hf, hd]

/-- The placed action of a row runs the row's operation, whichever encoding the row has. -/
theorem perform_actionOf_of_decode {code : Code} {i : Instr} {s : State} (hf : s.fault = false)
    (hd : decode code = .ok i) : perform (actionOf code) s = exec i s := by
  cases code with
  | host w => exact runCommand_of_decode hf hd
  | wire frame => exact runWireFrame_of_decode hf hd

theorem decode_tableCode_of_decodeTableWord {nbits w : Nat} {i : Instr} (h : decodeTableWord nbits w = some i) :
    decode (tableCode nbits w) = .ok i := by
  unfold decodeTableWord at h
  split at h
  · next j hj => rw [hj, Option.some.inj h]
  · cases h

/-! ## The statements -/

/-- Settles O6, by the three cases of the write of CMD (R91, R94, R242). -/
theorem stepRunsTheWrittenCommand : Obligations.StepRunsTheWrittenCommand := by
  intro s w rest hp
  rw [step_of_pending_cons hp, perform_writeReg_cmd]
  exact ⟨fun hf => runCommand_of_fault w hf, fun hf _ hd => runCommand_of_decode_error hf hd,
    fun hf _ hd => runCommand_of_decode hf hd⟩

/-- Settles O8: the placed action is the head of the list, and taking it off leaves the state it was placed in. -/
theorem placedWordIsWhatStepRuns : Obligations.PlacedWordIsWhatStepRuns := by
  intro s nbits w i hf hd
  have hp : (s.withFetchWord nbits w).pending = actionOf (tableCode nbits w) :: s.pending := rfl
  rw [step_of_pending_cons hp]
  exact perform_actionOf_of_decode hf (decode_tableCode_of_decodeTableWord hd)

/-- Settles O13: the write, then the read of a number below 15. -/
theorem registerReadAfterWrite : Obligations.RegisterReadAfterWrite := by
  intro s n m v rest h3 h7 hm hp
  obtain ⟨old, hold⟩ := exists_readReg s hm
  obtain ⟨t, ht, hpend, hans, hread⟩ := hostWriteReg_operand v { s with pending := .readReg m :: rest } h3 h7
  have hval : readReg { t with pending := rest } m = some (if m = n then v else old) := by
    rw [apply_ite some, ← hold]
    exact hread m hm
  refine ⟨t, answer _ { t with pending := rest }, old, ?_, ?_, hold, congrArg (· ++ [_]) hans, rfl⟩
  · rw [step_of_pending_cons hp, perform_writeReg v _ (by omega), ht]
  · rw [step_of_pending_cons hpend, perform_readReg, hostReadReg_of_readReg hval]

/-- Settles O14, by the register numbers outside A0..A4 and the reserved ones. -/
theorem readOnlyAndReservedRegisters : Obligations.ReadOnlyAndReservedRegisters := by
  refine fun s n v rest => ⟨fun hn hp => ?_, fun hn hp => ?_, fun hn hp => ?_⟩
  · rw [step_of_pending_cons hp, perform_writeReg v _ (by omega), hostWriteReg_not_operand v _ (by omega),
      if_pos (by omega)]
  · rw [step_of_pending_cons hp, perform_writeReg v _ (by omega), hostWriteReg_not_operand v _ (by omega),
      if_neg (by omega)]
  · rw [step_of_pending_cons hp, perform_readReg, hostReadReg_reserved _ hn]

/-- Settles O56: each listed pair is what `readReg` answers. -/
theorem registerNumbersReadTheirContents : Obligations.RegisterNumbersReadTheirContents := by
  intro s n v rest hp hv
  have hread : readReg { s with pending := rest } n = some v := by
    simp only [List.mem_cons, Prod.mk.injEq, List.not_mem_nil, or_false] at hv
    rcases hv with h | h | h | h | h | h | h | h | h | h | h | h | h <;> obtain ⟨rfl, rfl⟩ := h <;> rfl
  rw [step_of_pending_cons hp, perform_readReg, hostReadReg_of_readReg hread]
  rfl

/-- A field whose bits are all clear is zero. -/
theorem extractLsb'_eq_zero {w start len : Nat} {x : BitVec w} (h : ∀ i < len, x.getLsbD (start + i) = false) :
    x.extractLsb' start len = 0 := by
  refine BitVec.eq_of_getLsbD_eq fun i hi => ?_
  rw [BitVec.getLsbD_extractLsb', h i hi]
  simp

/-- R26: above its five flags STATUS holds FAULTCODE from bit 8 on and nothing else. -/
theorem getLsbD_statusWord_of_le (s : State) {i : Nat} (h5 : 5 ≤ i) (hi : i < 32) :
    (statusWord s).getLsbD i = (decide (8 ≤ i) && s.faultcode.getLsbD (i - 8)) := by
  have noFlag {k : Nat} (hk : k < 5) : i ≠ k := by omega
  rw [getLsbD_statusWord _ _ hi]
  simp [noFlag]

/-- R26: bits 7:5 and 31:16 of STATUS are zero, FAULTCODE stands between them. -/
theorem statusWord_fields (s : State) :
    (statusWord s).extractLsb' 5 3 = 0 ∧ (statusWord s).extractLsb' 8 8 = s.faultcode
      ∧ (statusWord s).extractLsb' 16 16 = 0 := by
  refine ⟨extractLsb'_eq_zero fun i hi => ?_, BitVec.eq_of_getLsbD_eq fun i hi => ?_,
    extractLsb'_eq_zero fun i hi => ?_⟩
  · rw [getLsbD_statusWord_of_le _ (by omega) (by omega), decide_eq_false (by omega), Bool.false_and]
  · rw [BitVec.getLsbD_extractLsb', getLsbD_statusWord_of_le _ (by omega) (by omega), Nat.add_sub_cancel_left]
    simp [hi]
  · rw [getLsbD_statusWord_of_le _ (by omega) (by omega), BitVec.getLsbD_of_ge s.faultcode _ (by omega),
      Bool.and_false]

theorem getLsbD_keyBits_key (keys : Vector Bool 5) (i : Fin 5) : (keyBits keys).getLsbD i = keys[i] := by
  rw [getLsbD_keyBits _ _ (by omega), dif_pos i.isLt]
  rfl

theorem getLsbD_keyBits_of_le (keys : Vector Bool 5) {i : Nat} (h5 : 5 ≤ i) (hi : i < 32) :
    (keyBits keys).getLsbD i = false := by
  rw [getLsbD_keyBits _ _ hi, dif_neg (by omega)]

/-- R27: the keys of phase 0 from bit 0 on, of phase 1 from bit 8 on. -/
theorem getLsbD_scanWord_key (s : State) (i : Fin 5) :
    (scanWord s).getLsbD i = s.scan[(0 : Fin 2)][i] ∧ (scanWord s).getLsbD (8 + i) = s.scan[(1 : Fin 2)][i] := by
  constructor
  · have : ¬ 8 ≤ i.val := by omega
    rw [getLsbD_scanWord _ _ (by omega), getLsbD_keyBits_key]
    simp [this]
  · rw [getLsbD_scanWord _ _ (by omega), getLsbD_keyBits_of_le _ (by omega) (by omega), Nat.add_sub_cancel_left,
      getLsbD_keyBits_key]
    simp

/-- R27: every other bit of SCANREG is zero. -/
theorem scanWord_fields (s : State) :
    (scanWord s).extractLsb' 5 3 = 0 ∧ (scanWord s).extractLsb' 13 19 = 0 := by
  refine ⟨extractLsb'_eq_zero fun i hi => ?_, extractLsb'_eq_zero fun i hi => ?_⟩
  · have : ¬ 8 ≤ 5 + i := by omega
    rw [getLsbD_scanWord _ _ (by omega), getLsbD_keyBits_of_le _ (by omega) (by omega)]
    simp [this]
  · rw [getLsbD_scanWord _ _ (by omega), getLsbD_keyBits_of_le _ (by omega) (by omega),
      getLsbD_keyBits_of_le _ (by omega) (by omega)]
    simp

/-- R26: the five flags of STATUS. -/
theorem getLsbD_statusWord_flags (s : State) :
    (statusWord s).getLsbD 0 = s.fault ∧ (statusWord s).getLsbD 1 = s.diag ∧ (statusWord s).getLsbD 2 = s.created
      ∧ (statusWord s).getLsbD 3 = s.kpInit ∧ (statusWord s).getLsbD 4 = s.fbSel := by
  refine ⟨?_, ?_, ?_, ?_, ?_⟩ <;> rw [getLsbD_statusWord _ _ (by decide)] <;> simp

/-- Settles O15, from the bits of STATUS and of SCANREG one by one. -/
theorem statusAndScanLayout : Obligations.StatusAndScanLayout := by
  intro s
  obtain ⟨b0, b1, b2, b3, b4⟩ := getLsbD_statusWord_flags s
  obtain ⟨hlow, hcode, hhigh⟩ := statusWord_fields s
  obtain ⟨hgap, htop⟩ := scanWord_fields s
  exact ⟨statusWord s, scanWord s, rfl, rfl, b0, b1, b2, b3, b4, hlow, hcode, hhigh, getLsbD_scanWord_key s, hgap,
    htop⟩

end Sys2Proof.Machine
end

section
/-! PROOFS. What an operation and a host action can leave, said once as a relation of two states, and the frames that
follow (spec/10_state.md R21, R22, R25, R31 to R34, R40). -/

namespace Sys2Proof.Machine

/-! ## Operations -/

/-- The first-call configuration as fields (R223). -/
theorem configureKeypad_eq (s : State) :
    configureKeypad s = { s with kpInit := true, out := s.out ++ if s.kpInit then [] else [.kpcfg] } := by
  unfold configureKeypad
  by_cases h : s.kpInit = true
  · rw [if_pos h, if_pos h, List.append_nil, ← h]
  · rw [if_neg h, if_neg h]
    rfl

/-- A phase's events are read off the levels and its own remembered keys. -/
theorem phaseEvents_congr (c : Cfg) {s t : State} (p : Fin 2) (hl : t.levels = s.levels) (hs : t.scan[p] = s.scan[p]) :
    phaseEvents c t p = phaseEvents c s p := by
  have key (i : Fin 5) : keyEvent c t p i = keyEvent c s p i := keyEvent_congr c s t p i hl (by rw [hs])
  simp only [phaseEvents, key]

/-- The configuration and the first phase of a poll as fields. -/
theorem scanPhase_configureKeypad (c : Cfg) (s : State) :
    scanPhase c 0 (configureKeypad s) =
      { s with
        kpInit := true
        strobe := phaseStrobe 0
        scan := s.scan.set 0 s.levels[0]
        out := s.out ++ ((if s.kpInit then [] else [.kpcfg])
          ++ ([.strobe (phaseStrobe 0), .delayUs c.tStrobeUs] ++ phaseEvents c s 0)) } := by
  rw [configureKeypad_eq, scanPhase_eq, List.append_assoc]
  rfl

theorem set_set_levels (m levels : KeyMatrix) : (m.set 0 levels[0]).set 1 levels[1] = levels := by
  refine Vector.ext fun p hp => ?_
  interval_cases p <;> simp

/-- A poll as fields: SCAN takes the ten levels, STROBE rests, the poll's events are appended (R220, R228). -/
theorem opKeypadPoll_eq (c : Cfg) (s : State) :
    opKeypadPoll c s =
      { s with kpInit := true, scan := s.levels, strobe := 0, out := s.out ++ pollEvents c s } := by
  have second : phaseEvents c (scanPhase c 0 (configureKeypad s)) 1 = phaseEvents c s 1 :=
    phaseEvents_congr c 1 (by rw [scanPhase_configureKeypad]) (by simp [scanPhase_configureKeypad])
  rw [opKeypadPoll, scanPhase_eq, second, scanPhase_configureKeypad]
  simp [driveStrobe, emit, pollEvents, phaseStrobe, set_set_levels]

/-- What an operation can leave: one constructor per kind of operation. -/
inductive Effect (i : Instr) (s : State) : State → Prop
  /-- KEYPAD_POLL (R220). -/
  | polls (hi : i = .keypadPoll) :
      Effect i s { s with kpInit := true, scan := s.levels, strobe := 0, out := s.out ++ pollEvents Config.cfg s }
  /-- The two buffer requests write R0 (R207, R208). -/
  | results (hi : i = .getBackBuffer ∨ i = .getFrontBuffer) (v : Word) : Effect i s { s with r0 := v }
  /-- A fault (R241). -/
  | faults (f : Trap) (hf : f ≠ .illegalCommand) : Effect i s (raise f s)
  /-- PANEL_CREATE (R120). -/
  | creates (hi : i = .panelCreate) (hc : s.created = false) (t : Transport) (w h : Half) :
      Effect i s (createDescriptor Config.cfg t w h s)
  /-- FINISH_UPDATE (R200). -/
  | blits (hi : i = .finishUpdate) (hc : s.created = true) {t : State} {ev : List Event}
      (h : Sends (blitBase Config.cfg s) t ev) : Effect i s t
  /-- Events of the display and nothing more. -/
  | sends (hi : i ≠ .panelCreate ∧ i ≠ .finishUpdate) {t : State} {ev : List Event} (h : Sends s t ev) :
      Effect i s t

/-- Every operation has one of these effects. -/
theorem effect_of_exec {i : Instr} {s t : State} (h : exec i s = .next t) : Effect i s t := by
  obtain rfl := (exec_next_iff i s t).1 h
  rcases run_cases i s with rfl | rfl | rfl | hdoes
  · rw [run, opKeypadPoll_eq]
    exact .polls rfl
  · exact .results (.inl rfl) _
  · exact .results (.inr rfl) _
  · rcases hdoes with ⟨f, hf, same⟩ | ⟨hi, hc, p, same⟩ | ⟨hi, hc, buf, n, height, same⟩ | ⟨hi, moves⟩
    · rw [same.1]
      exact .faults f hf
    · rw [same.1]
      exact .creates hi hc p _ _
    · obtain ⟨ev, hsends, -⟩ := blitFrame_sends Config.cfg buf n height s
      rw [same.1]
      exact .blits hi hc hsends
    · obtain ⟨ev, hsends, -⟩ := moves
      exact .sends hi hsends

/-- No operation takes an event off OUT (R40). -/
theorem Effect.out {i : Instr} {s t : State} (h : Effect i s t) : ∃ ev, t.out = s.out ++ ev := by
  cases h with
  | polls => exact ⟨_, rfl⟩
  | results | faults => exact ⟨[], (List.append_nil _).symm⟩
  | creates => exact ⟨_, by rw [createDescriptor_eq]⟩
  | blits _ _ h | sends _ h => exact ⟨_, congrArg State.out h.frame⟩

/-- Settles O16: each effect leaves the operand registers, and all but the buffer requests leave R0. -/
theorem operandsSurviveEveryOperation : Obligations.OperandsSurviveEveryOperation := by
  intro i s t h
  cases effect_of_exec h with
  | polls | faults => exact ⟨rfl, rfl, rfl, rfl, rfl, fun _ _ => rfl⟩
  | results hi v => exact ⟨rfl, rfl, rfl, rfl, rfl, fun h1 h2 => absurd hi (by simp [h1, h2])⟩
  | creates => rw [createDescriptor_eq]; exact ⟨rfl, rfl, rfl, rfl, rfl, fun _ _ => rfl⟩
  | blits _ _ h | sends _ h => rw [h.frame]; exact ⟨rfl, rfl, rfl, rfl, rfl, fun _ _ => rfl⟩

/-- Settles O19: each effect leaves the memories, but a blit replaces LUT. -/
theorem operationsLeaveHostMemoryAlone : Obligations.OperationsLeaveHostMemoryAlone := by
  intro i s t h
  cases effect_of_exec h with
  | polls | faults | results => exact ⟨fun _ _ _ => rfl, fun _ _ => rfl⟩
  | creates => rw [createDescriptor_eq]; exact ⟨fun _ _ _ => rfl, fun _ _ => rfl⟩
  | blits hi _ h =>
    rw [h.frame]
    refine ⟨fun sp j hsp => ?_, fun hne => absurd hi hne⟩
    cases sp with
    | lut => exact absurd rfl hsp
    | pal | fb0 | fb1 | xbuf => rfl
  | sends _ h => rw [h.frame]; exact ⟨fun _ _ _ => rfl, fun _ _ => rfl⟩

/-- Settles O21: the one effect that writes the descriptor is PANEL_CREATE's, and it needs CREATED = 0. -/
theorem descriptorIsFixedOnceCreated : Obligations.DescriptorIsFixedOnceCreated := by
  intro i s t h
  cases effect_of_exec h with
  | polls | faults | results => exact ⟨fun h => h, fun _ => ⟨rfl, rfl, rfl, rfl, rfl, rfl, rfl⟩⟩
  | creates hi hc => rw [createDescriptor_eq]; exact ⟨fun _ => rfl, fun h => absurd h (by simp [hi, hc])⟩
  | blits _ _ h | sends _ h => rw [h.frame]; exact ⟨fun h => h, fun _ => ⟨rfl, rfl, rfl, rfl, rfl, rfl, rfl⟩⟩

/-! ## Host actions -/

/-- What a host action can leave: one constructor per kind of action. -/
inductive Performed (a : HostAction) (s : State) : State → Prop
  /-- An operation was started, with FAULT = 0 (R91, R100, R242). -/
  | runs (hf : s.fault = false) {i : Instr} {t : State} (h : Effect i s t) : Performed a s t
  /-- A word that names no operation (R94). -/
  | illegal (hf : s.fault = false) : Performed a s (raise .illegalCommand s)
  /-- Operand registers took a value, or a write was ignored (R27). -/
  | operands (a0 a1 a2 a3 a4 : Word) : Performed a s { s with a0 := a0, a1 := a1, a2 := a2, a3 := a3, a4 := a4 }
  /-- A read was answered (R27, R61). -/
  | reads (v : Word) : Performed a s (answer v s)
  /-- A cell that exists took a value (R61). -/
  | cell (sp : Space) (j : Nat) (v : Half) (hsp : spaceExists Config.cfg sp = true)
      (hj : j < spaceCells Config.cfg sp) : Performed a s (writeCell sp j v s)
  /-- The key matrix answers other levels (R42). -/
  | levels (m : KeyMatrix) : Performed a s { s with levels := m }
  /-- Reset (R270). -/
  | resets (ha : a = .reset) : Performed a s (applyReset s)

theorem performed_of_runCommand {a : HostAction} {w : Word} {s t : State} (h : runCommand w s = .next t) :
    Performed a s t := by
  unfold runCommand at h
  split at h
  · cases h
  · next hf =>
    split at h
    · cases h
      exact .illegal (Bool.eq_false_iff.2 hf)
    · exact .runs (Bool.eq_false_iff.2 hf) (effect_of_exec h)

theorem performed_of_runWireFrame {a : HostAction} {frame : List Byte} {s t : State}
    (h : runWireFrame frame s = .next t) : Performed a s t := by
  unfold runWireFrame at h
  split at h
  · cases h
  · next hf =>
    split at h
    · cases h
    · exact .runs (Bool.eq_false_iff.2 hf) (effect_of_exec h)

theorem performed_of_hostWriteReg {a : HostAction} {n : Nat} {v : Word} {s t : State}
    (h : hostWriteReg n v s = .next t) : Performed a s t := by
  by_cases hn : 3 ≤ n ∧ n ≤ 7
  · obtain ⟨h3, h7⟩ := hn
    interval_cases n <;> cases h <;> exact .operands ..
  · rw [hostWriteReg_not_operand v s (by omega)] at h
    split at h
    · cases h
      exact .operands s.a0 s.a1 s.a2 s.a3 s.a4
    · cases h

theorem performed_of_hostReadReg {a : HostAction} {n : Nat} {s t : State} (h : hostReadReg n s = .next t) :
    Performed a s t := by
  unfold hostReadReg at h
  split at h
  · cases h
    exact .reads _
  · cases h

theorem performed_of_hostReadMem {a : HostAction} {sp : Space} {j : Nat} {s t : State}
    (h : hostReadMem Config.cfg sp j s = .next t) : Performed a s t := by
  unfold hostReadMem at h
  split_ifs at h
  cases h
  exact .reads _

theorem performed_of_hostWriteMem {a : HostAction} {sp : Space} {j : Nat} {v : Half} {s t : State}
    (h : hostWriteMem Config.cfg sp j v s = .next t) : Performed a s t := by
  unfold hostWriteMem at h
  split_ifs at h with _ hsp hj _
  cases h
  exact .cell sp j v (Bool.eq_true_of_not_eq_false hsp) (Nat.lt_of_not_le hj)

/-- Every action that answers a next state leaves one of these. -/
theorem performed_of_perform {a : HostAction} {s t : State} (h : perform a s = .next t) : Performed a s t := by
  cases a with
  | writeReg n v =>
    by_cases hn : n = 0
    · subst hn
      exact performed_of_runCommand h
    · rw [perform_writeReg v s hn] at h
      exact performed_of_hostWriteReg h
  | readReg n => exact performed_of_hostReadReg h
  | writeMem sp j v => exact performed_of_hostWriteMem h
  | readMem sp j => exact performed_of_hostReadMem h
  | setLevels m => cases h; exact .levels m
  | reset => cases h; exact .resets rfl
  | wireFrame frame => exact performed_of_runWireFrame h

/-- A step idles, or takes the first action off the list and performs it (R16). -/
theorem step_next_cases {s t : State} (h : step s = .next t) :
    (s.pending = [] ∧ t = s)
      ∨ ∃ a rest, s.pending = a :: rest ∧ Performed a { s with pending := rest } t := by
  cases hp : s.pending with
  | nil =>
    rw [step_of_pending_nil hp] at h
    cases h
    exact .inl ⟨rfl, rfl⟩
  | cons a rest =>
    rw [step_of_pending_cons hp] at h
    exact .inr ⟨a, rest, rfl, performed_of_perform h⟩

/-- Every action but reset keeps OUT and appends to it (R40). -/
theorem Performed.out {a : HostAction} {s t : State} (h : Performed a s t) (ha : a ≠ .reset) :
    ∃ ev, t.out = s.out ++ ev := by
  cases h with
  | runs _ h => exact h.out
  | illegal | operands | reads | levels => exact ⟨[], (List.append_nil _).symm⟩
  | cell sp => cases sp <;> exact ⟨[], (List.append_nil _).symm⟩
  | resets hr => exact absurd hr ha

/-- Settles O9: an idle step appends nothing, and every action but reset appends its events. -/
theorem outputStreamOnlyGrows : Obligations.OutputStreamOnlyGrows := by
  intro s t h hreset
  rcases step_next_cases h with ⟨-, rfl⟩ | ⟨a, rest, hp, hperf⟩
  · exact ⟨[], (List.append_nil _).symm⟩
  · exact hperf.out fun ha => hreset rest (ha ▸ hp)

end Sys2Proof.Machine
end

section
/-! PROOFS. The state after reset (spec/10_state.md R45) and the machine's invariant: it holds after reset, and each
effect of an operation and of a host action keeps it. -/

namespace Sys2Proof.Machine

theorem reset_scan (p : Fin 2) (i : Fin 5) : State.reset.scan[p][i] = false := by
  simp [State.reset, KeyMatrix.none]

/-- Settles O48, row by row of R45's table. -/
theorem resetLeavesTheTableOfR45 : Obligations.ResetLeavesTheTableOfR45 := by
  have operands : ∀ n, 3 ≤ n → n ≤ 7 → readReg State.reset n = some 0 := fun n h3 h7 => by
    interval_cases n <;> rfl
  exact ⟨operands, rfl, rfl, rfl, rfl, rfl, rfl, rfl, rfl, rfl, rfl, rfl, rfl, rfl, rfl, rfl, rfl, rfl, reset_scan,
    rfl, fun _ => ⟨rfl, rfl, rfl, rfl, rfl⟩⟩

/-! ## Reset -/

/-- The empty listing is canonical. -/
theorem Mem.wf_nil {w : Nat} (size : Nat) : Mem.wf size ([] : Mem w) = true := rfl

theorem inv_reset : Inv State.reset where
  pal := Mem.wf_nil _
  lut := Mem.wf_nil _
  fb0 := Mem.wf_nil _
  fb1 := Mem.wf_nil _
  noSecondBuffer _ := ⟨rfl, rfl⟩
  xbuf := Mem.wf_nil _
  faultcode := by decide
  faultAgrees := by decide
  csRests := rfl
  strobeRests := rfl
  uncreated _ := ⟨rfl, rfl, rfl, rfl, rfl, rfl, rfl, rfl, rfl⟩
  unpolled _ := rfl

/-- Settles O50: every memory is the empty listing and every other field is R45's value. -/
theorem invariantHoldsAtReset : Obligations.InvariantHoldsAtReset := inv_reset

/-- Reset leaves what the invariant speaks of as it is after `State.reset` (R270). -/
theorem inv_applyReset (s : State) : Inv (applyReset s) := { inv_reset with }

/-! ## Operations -/

theorem Inv.withPending {s : State} (h : Inv s) (rest : List HostAction) : Inv { s with pending := rest } := { h with }

theorem Trap.code_ne_zero (f : Trap) : f.code ≠ 0 := by cases f <;> decide

theorem Trap.code_le_seven (f : Trap) : f.code ≤ 7 := by cases f <;> decide

/-- The first fault's code is recorded and is one of the seven (R240, R241). -/
theorem Inv.raise {s : State} (h : Inv s) (f : Trap) : Inv (raise f s) :=
  { h with
    faultcode := by
      rw [raise_faultcode]
      split
      · exact h.faultcode
      · exact f.code_le_seven
    faultAgrees := by
      rw [raise_faultcode, raise_fault]
      split
      · next hf => simpa using h.faultAgrees.1 hf
      · simpa using f.code_ne_zero }

/-- Whatever is sent, chip-select rests at the end; before PANEL_CREATE the transport is NULL and nothing is sent. -/
theorem Inv.sends {s t : State} {ev : List Event} (h : Inv s) (hs : Sends s t ev) : Inv t := by
  have hcs : t.cs = false := hs.cs.elim (·.trans h.csRests) id
  have huncreated (hc : s.created = false) : t.dc = false ∧ t.rst = false ∧ t.blDuty = 0 := by
    obtain ⟨hnull, -, -, -, -, hbl, -, hdc, hrst⟩ := h.uncreated hc
    obtain ⟨-, edc, erst, ebl⟩ := hs.quiet (hs.null hnull)
    exact ⟨edc.trans hdc, erst.trans hrst, ebl.trans hbl⟩
  rw [hs.frame]
  exact
    { h with
      csRests := hcs
      uncreated := fun hc => by
        obtain ⟨hnull, hw, hh, hx, hy, -, hdiag, -, -⟩ := h.uncreated hc
        obtain ⟨hdc, hrst, hbl⟩ := huncreated hc
        exact ⟨hnull, hw, hh, hx, hy, hbl, hdiag, hdc, hrst⟩ }

/-- ConvertPalette lists every cell of LUT, and only double buffering moves the buffer flag (R192, R206). -/
theorem Inv.blitBase {s : State} (h : Inv s) : Inv (blitBase Config.cfg s) :=
  { h with
    lut := by
      show Mem.wf palEntries ((List.range palEntries).map fun i => (i, storedEntry s i)) = true
      rw [List.range_eq_range']
      exact Mem.wf_listing (storedEntry s) palEntries 0 palEntries (by simp)
    noSecondBuffer := fun hsingle => by
      obtain ⟨hfb1, hsel⟩ := h.noSecondBuffer hsingle
      exact ⟨hfb1, by simp [Machine.blitBase, hsingle, hsel]⟩ }

theorem Inv.createDescriptor {s : State} (h : Inv s) (p : Transport) (w ht : Half) :
    Inv (createDescriptor Config.cfg p w ht s) := by
  rw [createDescriptor_eq]
  exact { h with uncreated := fun hc => absurd hc (by simp) }

/-- No operation breaks the invariant. -/
theorem Inv.effect {i : Instr} {s t : State} (h : Inv s) (he : Effect i s t) : Inv t := by
  cases he with
  | polls => exact { h with strobeRests := rfl, unpolled := fun hk => absurd hk (by simp) }
  | results => exact { h with }
  | faults f _ => exact h.raise f
  | creates _ _ p w ht => exact h.createDescriptor p w ht
  | blits _ _ hs => exact h.blitBase.sends hs
  | sends _ hs => exact h.sends hs

/-! ## Host actions -/

/-- A write of a cell that exists lists a cell below the space's size, and FB1 exists only in double mode (R60, R61). -/
theorem Inv.writeCell {s : State} {sp : Space} {j : Nat} (h : Inv s) (hsp : spaceExists Config.cfg sp = true)
    (hj : j < spaceCells Config.cfg sp) (v : Half) : Inv (writeCell sp j v s) := by
  cases sp with
  | pal => exact { h with pal := Mem.wf_set _ _ _ hj h.pal }
  | lut => exact h
  | fb0 => exact { h with fb0 := Mem.wf_set _ _ _ hj h.fb0 }
  | fb1 =>
    exact
      { h with
        fb1 := Mem.wf_set _ _ _ hj h.fb1
        noSecondBuffer := fun hsingle => absurd hsp (by simp [spaceExists, Cfg.nbuf, hsingle]) }
  | xbuf => exact { h with xbuf := Mem.wf_set _ _ _ hj h.xbuf }

/-- No host action breaks the invariant. -/
theorem Inv.performed {a : HostAction} {s t : State} (h : Inv s) (hp : Performed a s t) : Inv t := by
  cases hp with
  | runs _ he => exact h.effect he
  | illegal => exact h.raise .illegalCommand
  | operands | reads | levels => exact { h with }
  | cell sp j v hsp hj => exact h.writeCell hsp hj v
  | resets => exact inv_applyReset s

/-- Settles O51: an idle step keeps the state, and every action keeps the invariant. -/
theorem everyStepKeepsTheInvariant : Obligations.EveryStepKeepsTheInvariant := by
  intro s t hinv h
  rcases step_next_cases h with ⟨-, rfl⟩ | ⟨a, rest, -, hperf⟩
  · exact hinv
  · exact (hinv.withPending rest).performed hperf

end Sys2Proof.Machine
end

section
/-! PROOFS. The host's memory accesses (spec/20_memory.md R60, R61): which are refused, what a cell reads after a write,
and the statements on cells that follow. -/

namespace Sys2Proof.Machine

/-! ## Accesses -/

theorem perform_readMem (sp : Space) (i : Nat) (s : State) :
    perform (.readMem sp i) s = hostReadMem Config.cfg sp i s := rfl

theorem perform_writeMem (sp : Space) (i : Nat) (v : Half) (s : State) :
    perform (.writeMem sp i v) s = hostWriteMem Config.cfg sp i v s := rfl

/-- R61: only FB1 can be absent, and it is when NBUF = 1. -/
theorem spaceExists_fb1_of_single {c : Cfg} (h : c.nbuf = 1) : spaceExists c .fb1 = false := by
  simp [spaceExists, h]

theorem hostReadMem_absent {c : Cfg} {sp : Space} (i : Nat) (s : State) (h : spaceExists c sp = false) :
    hostReadMem c sp i s = .refused .noSecondBuffer := if_pos h

theorem hostReadMem_beyond {c : Cfg} {sp : Space} {i : Nat} (s : State) (h : spaceExists c sp = true)
    (hi : spaceCells c sp ≤ i) : hostReadMem c sp i s = .refused (.memoryIndex sp i) := by
  simp [hostReadMem, h, hi]

theorem hostReadMem_cell {c : Cfg} {sp : Space} {i : Nat} (s : State) (h : spaceExists c sp = true)
    (hi : i < spaceCells c sp) : hostReadMem c sp i s = .next (answer (readCell s sp i) s) := by
  simp [hostReadMem, h, hi]

theorem hostWriteMem_lut (c : Cfg) (i : Nat) (v : Half) (s : State) : hostWriteMem c .lut i v s = .refused .lutWrite :=
  rfl

theorem hostWriteMem_absent {c : Cfg} {sp : Space} (i : Nat) (v : Half) (s : State) (hsp : sp ≠ .lut)
    (h : spaceExists c sp = false) : hostWriteMem c sp i v s = .refused .noSecondBuffer := by
  simp [hostWriteMem, hsp, h]

theorem hostWriteMem_beyond {c : Cfg} {sp : Space} {i : Nat} (v : Half) (s : State) (hsp : sp ≠ .lut)
    (h : spaceExists c sp = true) (hi : spaceCells c sp ≤ i) :
    hostWriteMem c sp i v s = .refused (.memoryIndex sp i) := by
  simp [hostWriteMem, hsp, h, hi]

theorem hostWriteMem_cell {c : Cfg} {sp : Space} {i : Nat} {v : Half} (s : State) (hsp : sp ≠ .lut)
    (h : spaceExists c sp = true) (hi : i < spaceCells c sp) (hv : fitsCell sp v = true) :
    hostWriteMem c sp i v s = .next (writeCell sp i v s) := by
  simp [hostWriteMem, hsp, h, hi, hv]

/-! ## Cells after a write -/

@[simp] theorem writeCell_pending (sp : Space) (i : Nat) (v : Half) (s : State) :
    (writeCell sp i v s).pending = s.pending := by
  cases sp <;> rfl

@[simp] theorem writeCell_answers (sp : Space) (i : Nat) (v : Half) (s : State) :
    (writeCell sp i v s).answers = s.answers := by
  cases sp <;> rfl

/-- Cells do not depend on the host's list. -/
theorem readCell_withPending (s : State) (rest : List HostAction) (sp : Space) (j : Nat) :
    readCell { s with pending := rest } sp j = readCell s sp j := by
  cases sp <;> rfl

/-- A read after a write, for a memory whose unwritten cell `j` holds `d`. -/
theorem Mem.getD_get?_set {w : Nat} (m : Mem w) (i j : Nat) (v d : BitVec w) :
    (Mem.get? (Mem.set m i v) j).getD d = if j = i then v else (Mem.get? m j).getD d := by
  rw [Mem.get?_set]
  split <;> rfl

/-- A value that fits a byte cell is read back whole (R60). -/
theorem setWidth_byte_of_lt {v : Half} (h : v.toNat < 256) : (v.setWidth 8).setWidth 32 = v.setWidth 32 := by
  apply BitVec.eq_of_toNat_eq
  simp only [BitVec.toNat_setWidth]
  omega

theorem readCell_writeCell_of_ne {sp sq : Space} (i j : Nat) (v : Half) (s : State) (h : sq ≠ sp) :
    readCell (writeCell sp i v s) sq j = readCell s sq j := by
  cases sp with
  | pal =>
    cases sq with
    | pal => exact absurd rfl h
    | lut | fb0 | fb1 | xbuf => rfl
  | lut => rfl
  | fb0 =>
    cases sq with
    | fb0 => exact absurd rfl h
    | pal | lut | fb1 | xbuf => rfl
  | fb1 =>
    cases sq with
    | fb1 => exact absurd rfl h
    | pal | lut | fb0 | xbuf => rfl
  | xbuf =>
    cases sq with
    | xbuf => exact absurd rfl h
    | pal | lut | fb0 | fb1 => rfl

theorem readCell_writeCell_same {sp : Space} (i j : Nat) {v : Half} (s : State) (hsp : sp ≠ .lut)
    (hv : fitsCell sp v = true) :
    readCell (writeCell sp i v s) sp j = if j = i then v.setWidth 32 else readCell s sp j := by
  cases sp with
  | lut => exact absurd rfl hsp
  | pal | xbuf =>
    rw [← setWidth_byte_of_lt (of_decide_eq_true hv)]
    exact (congrArg (BitVec.setWidth 32) (Mem.getD_get?_set ..)).trans (apply_ite ..)
  | fb0 | fb1 => exact (congrArg (BitVec.setWidth 32) (Mem.getD_get?_set ..)).trans (apply_ite ..)

/-- R61: what any cell of any space reads after a write of a value that fits. -/
theorem readCell_writeCell {sp : Space} (sq : Space) (i j : Nat) {v : Half} (s : State) (hsp : sp ≠ .lut)
    (hv : fitsCell sp v = true) :
    readCell (writeCell sp i v s) sq j = if sq = sp ∧ j = i then v.setWidth 32 else readCell s sq j := by
  by_cases h : sq = sp
  · subst h
    simp only [readCell_writeCell_same i j s hsp hv, true_and]
  · rw [readCell_writeCell_of_ne i j v s h, if_neg fun hc => h hc.1]

/-! ## The statements -/

/-- A step that reads a cell answers what the cell holds. -/
theorem step_readMem {s : State} {sq : Space} {j : Nat} {rest : List HostAction}
    (hp : s.pending = .readMem sq j :: rest) (h : spaceExists Config.cfg sq = true)
    (hj : j < spaceCells Config.cfg sq) :
    step s = .next (answer (readCell s sq j) { s with pending := rest }) := by
  rw [step_of_pending_cons hp, perform_readMem, hostReadMem_cell _ h hj, readCell_withPending]

/-- Settles O17: the write of a cell that exists, then the read of one. -/
theorem cellReadAfterWrite : Obligations.CellReadAfterWrite := by
  intro s sp sq i j v rest hsp hex hi hv hexq hj hp
  obtain ⟨t, ht⟩ : ∃ t, t = writeCell sp i v { s with pending := .readMem sq j :: rest } := ⟨_, rfl⟩
  have hpend : t.pending = .readMem sq j :: rest := by rw [ht, writeCell_pending]
  have hans : t.answers = s.answers := by rw [ht, writeCell_answers]
  have hread : readCell t sq j = if sq = sp ∧ j = i then v.setWidth 32 else readCell s sq j := by
    rw [ht, readCell_writeCell sq i j _ hsp hv, readCell_withPending]
  refine ⟨t, _, ?_, step_readMem hpend hexq hj, rfl, ?_⟩
  · rw [step_of_pending_cons hp, perform_writeMem, hostWriteMem_cell _ hsp hex hi hv, ht]
  · rw [answer_answers, hread, hans]

/-- Settles O18: the refusals of the two accesses, and the step that performs an access. -/
theorem accessesWithoutMeaningAreRefused : Obligations.AccessesWithoutMeaningAreRefused := by
  refine ⟨fun c sp i s h hi => hostReadMem_beyond s h hi, fun c sp i v s hsp h hi => hostWriteMem_beyond v s hsp h hi,
    hostWriteMem_lut, fun c i v s hc => ?_, fun s rest sp i v => ⟨fun hp => ?_, fun hp => ?_⟩⟩
  · have hex := spaceExists_fb1_of_single hc
    exact ⟨hostReadMem_absent i s hex, hostWriteMem_absent i v s (by decide) hex⟩
  · exact step_of_pending_cons hp
  · exact step_of_pending_cons hp

end Sys2Proof.Machine
end

section
/-! PROOFS. What the panel observer knows after a fill and after pixels without a landing rule (spec/20_memory.md R75 to
R77). -/

namespace Sys2Proof.Machine

/-! ## Accepted operations -/

section Accepted
variable {s : State} (hc : s.created = true) (hn : s.transport ≠ .null)
include hc hn

/-- FILL_RECT of a rectangle wholly on the panel sends one fill (R164). -/
theorem exec_fillRect_accepted (hw : 1 ≤ (u16 s.a2).toNat) (hh : 1 ≤ (u16 s.a3).toNat)
    (hx : (u16 s.a0).toNat + (u16 s.a2).toNat ≤ s.width.toNat)
    (hy : (u16 s.a1).toNat + (u16 s.a3).toNat ≤ s.height.toNat) :
    exec .fillRect s = .next (filled s (fillEvents Config.cfg s (u16 s.a0) (u16 s.a1) (u16 s.a0 + u16 s.a2 - 1)
      (u16 s.a1 + u16 s.a3 - 1) ((u16 s.a2).toNat * (u16 s.a3).toNat) (u16 s.a4))) := by
  obtain ⟨hx0, hx1⟩ := (run_fits (u16 s.a0) (u16 s.a2) s.width).2 ⟨hw, hx⟩
  obtain ⟨hy0, hy1⟩ := (run_fits (u16 s.a1) (u16 s.a3) s.height).2 ⟨hh, hy⟩
  rw [exec_eq_run, run, opFillRect, needPanel_created _ s hc,
    fillWindow_accepted _ _ _ _ _ _ _ s ((windowOk_iff ..).2 ⟨hx0, hy0, hx1, hy1⟩) hn]

/-- HLINE of a run wholly on the panel sends one fill (R162). -/
theorem exec_hline_accepted (hl : 1 ≤ (u16 s.a2).toNat) (hx : (u16 s.a0).toNat + (u16 s.a2).toNat ≤ s.width.toNat)
    (hy : (u16 s.a1).toNat < s.height.toNat) :
    exec .hline s = .next (filled s (fillEvents Config.cfg s (u16 s.a0) (u16 s.a1) (u16 s.a0 + u16 s.a2 - 1)
      (u16 s.a1) (u16 s.a2).toNat (u16 s.a3))) := by
  obtain ⟨hx0, hx1⟩ := (run_fits (u16 s.a0) (u16 s.a2) s.width).2 ⟨hl, hx⟩
  rw [exec_eq_run, run, opHline, needPanel_created _ s hc, hlineRun,
    fillWindow_accepted _ _ _ _ _ _ _ s ((windowOk_iff ..).2 ⟨hx0, le_rfl, hx1, hy⟩) hn]

/-- WRITE of at least one byte that XBUF holds sends one piece (R126, R127). -/
theorem exec_write_accepted (h1 : 1 ≤ s.a0.toNat) (hx : s.a0.toNat ≤ Config.cfg.xbufBytes) :
    exec .write s = .next (sent s (pieceEvents Config.cfg s.transport true (xbufBytes s s.a0.toNat))) := by
  have hne : s.a0 ≠ 0 := fun h => by simp [h] at h1
  rw [exec_eq_run, run, opWrite, needPanel_created _ s hc, if_neg (Nat.not_lt.2 hx), if_neg hne,
    rawWrite_sends _ _ _ s hn]

/-- SET_WINDOW sends the frames of its window, or nothing (R123, R124). -/
theorem exec_setWindow_sends :
    exec .setWindow s = .next (sent s (windowEvents Config.cfg s (u16 s.a0) (u16 s.a1) (u16 s.a2) (u16 s.a3)))
      ∨ exec .setWindow s = .next s := by
  rw [exec_eq_run, run, opSetWindow, needPanel_created _ s hc]
  by_cases h : windowOk s (u16 s.a0) (u16 s.a1) (u16 s.a2) (u16 s.a3) = true
  · rw [setWindow_accepted _ _ _ _ _ s h, addressWindow_sends _ _ _ _ _ s hn]
    exact .inl rfl
  · rw [setWindow_rejected _ _ _ _ _ s (Bool.eq_false_iff.2 h)]
    exact .inr rfl

end Accepted

/-! ## A run's bounds on the wire -/

/-- The end of a run of `n` from `x` as it goes to the wire (R101): the origin is added modulo 65536. -/
theorem toNat_run_end_add (x n origin : Half) (hn : 1 ≤ n.toNat) :
    (x + n - 1 + origin).toNat = (origin.toNat + x.toNat + n.toNat - 1) % 65536 := by
  have one : (1 : Half).toNat = 1 := rfl
  simp only [BitVec.toNat_add, BitVec.toNat_sub, one]
  omega

theorem toNat_add_origin {x origin : Half} (h : origin.toNat + x.toNat < 65536) :
    (x + origin).toNat = origin.toNat + x.toNat := by
  simp only [BitVec.toNat_add]
  omega

/-- Where no offset wraps, the window of a rectangle is the rectangle offset by the origin. -/
theorem wireWindow_rect {s : State} {x y w h : Half} (hw : 1 ≤ w.toNat) (hh : 1 ≤ h.toNat)
    (hx : s.xstart.toNat + x.toNat + w.toNat ≤ 65536) (hy : s.ystart.toNat + y.toNat + h.toNat ≤ 65536) :
    wireWindow s x y (x + w - 1) (y + h - 1) =
      ⟨s.xstart.toNat + x.toNat, s.xstart.toNat + x.toNat + w.toNat - 1,
        s.ystart.toNat + y.toNat, s.ystart.toNat + y.toNat + h.toNat - 1⟩ := by
  rw [wireWindow, toNat_run_end_add x w _ hw, toNat_run_end_add y h _ hh, toNat_add_origin (by omega),
    toNat_add_origin (by omega), Nat.mod_eq_of_lt (by omega), Nat.mod_eq_of_lt (by omega)]

/-- A run whose end wraps ends before it starts. -/
theorem wireWindow_wrapped {s : State} {x n : Half} (y0 y1 : Half) (hn : 1 ≤ n.toNat)
    (hx : s.xstart.toNat + x.toNat < 65536) (hwrap : 65536 < s.xstart.toNat + x.toNat + n.toNat) :
    (wireWindow s x y0 (x + n - 1) y1).cb < (wireWindow s x y0 (x + n - 1) y1).ca := by
  have := n.isLt
  show (x + n - 1 + s.xstart).toNat < (x + s.xstart).toNat
  rw [toNat_run_end_add x n _ hn, toNat_add_origin hx]
  omega

/-! ## What the observer sees -/

/-- An operation that sends nothing leaves what is known. -/
theorem seeOperation_host_nil (c : Cfg) {i : Instr} (hi : i ∉ generatesPixels) (x y : Nat) (v : CellView) :
    seeOperation c i [] x y v = v := by
  rw [seeOperation, operationNotes_host c i [] hi]
  rfl

/-- Addressing a window alone leaves what is known (R75, U20). -/
theorem seeOperation_host_window (c : Cfg) {i : Instr} (hi : i ∉ generatesPixels) (s : State) (x0 y0 x1 y1 : Half)
    (x y : Nat) (v : CellView) : seeOperation c i (windowEvents c s x0 y0 x1 y1) x y v = v := by
  rw [seeOperation, operationNotes_host c i _ hi, (reads_window c s x0 y0 x1 y1).framesOf, hostFrameNotes_window]
  rfl

/-- Pixel data that the host sends leaves no cell known (U20). -/
theorem seeOperation_host_piece (c : Cfg) {i : Instr} (hi : i ∉ generatesPixels) (t : Transport) (first : Bool)
    {bytes : List Byte} (hb : bytes ≠ []) (x y : Nat) (v : CellView) :
    seeOperation c i (pieceEvents c t first bytes) x y v = ⟨none, v.lost⟩ := by
  rw [seeOperation, operationNotes_host c i _ hi, (reads_piece c t first bytes).framesOf, List.flatMap_singleton,
    hostFrameNotes_piece t first bytes hb]
  rfl

/-- A fill is one window write to the observer (R75, R281). -/
theorem seeOperation_fill (c : Cfg) {i : Instr} (hi : i ∈ generatesPixels) {s : State} (hn : s.transport ≠ .null)
    (x0 y0 x1 y1 : Half) {count : Nat} (hcount : 1 ≤ count) (color : Half) (x y : Nat) (v : CellView) :
    seeOperation c i (fillEvents c s x0 y0 x1 y1 count color) x y v
      = seeNote x y v (.write (wireWindow s x0 y0 x1 y1) (rep count (be16 color))) := by
  rw [seeOperation, operationNotes_generated c i _ hi, panelNotes_fill c s x0 y0 x1 y1 count color hn hcount]
  rfl

/-- A fill of a whole window paints exactly its cells (R76 (c)). -/
theorem seeNote_fill {w : Window} {n : Nat} (color : Half) (hca : w.ca ≤ w.cb) (hra : w.ra ≤ w.rb)
    (hn : n = (w.cb - w.ca + 1) * (w.rb - w.ra + 1)) (x y : Nat) {v : CellView} (hv : v.lost = false) :
    seeNote x y v (.write w (rep n (be16 color))) = if w.contains x y then ⟨some color, false⟩ else v := by
  rw [seeNote_landed w _ x y v hv (lands_fill w n color hca hra hn)]
  by_cases hin : w.contains x y = true
  · rw [if_pos hin, if_pos hin, landing_fill w n color x y hn hin]
  · rw [if_neg hin, if_neg hin]

/-- The cells of a rectangle's window. -/
theorem contains_rect {x0 y0 w h : Nat} (hw : 1 ≤ w) (hh : 1 ≤ h) (x y : Nat) :
    Window.contains ⟨x0, x0 + w - 1, y0, y0 + h - 1⟩ x y = true
      ↔ x0 ≤ x ∧ x < x0 + w ∧ y0 ≤ y ∧ y < y0 + h := by
  simp only [Window.contains, Bool.and_eq_true, decide_eq_true_eq]
  omega

/-! ## The statements -/

/-- Settles O53: the one fill that is sent lands by case (c) of R76 on the window of the rectangle. -/
theorem fillRectPaintsItsRectangle : Obligations.FillRectPaintsItsRectangle := by
  intro s hc hn hw hh hx hy hxs hys
  refine ⟨_, _, exec_fillRect_accepted hc hn hw hh hx hy, filled_out _ s, fun x y v hv => ?_⟩
  have hcells : (u16 s.a2).toNat * (u16 s.a3).toNat
      = (s.xstart.toNat + (u16 s.a0).toNat + (u16 s.a2).toNat - 1 - (s.xstart.toNat + (u16 s.a0).toNat) + 1)
        * (s.ystart.toNat + (u16 s.a1).toNat + (u16 s.a3).toNat - 1 - (s.ystart.toNat + (u16 s.a1).toNat) + 1) := by
    congr 1 <;> omega
  rw [seeOperation_fill _ (by decide) hn _ _ _ _ (Nat.mul_pos hw hh), wireWindow_rect hw hh (by omega) (by omega),
    seeNote_fill (u16 s.a4) (by dsimp only; omega) (by dsimp only; omega) hcells x y hv]
  exact if_congr (contains_rect hw hh x y) rfl rfl

/-- Settles O58: SET_WINDOW sends addresses only, WRITE sends data outside a window write, and a wrapped HLINE is a
window write whose bounds run down. -/
theorem pixelsWithoutALandingRuleLeaveNothingKnown : Obligations.PixelsWithoutALandingRuleLeaveNothingKnown := by
  intro s hc hn
  refine ⟨?_, fun h1 hx => ?_, fun hl hx hy hstart hwrap => ?_⟩
  · rcases exec_setWindow_sends hc hn with h | h
    · exact ⟨_, _, h, sent_out _ s, seeOperation_host_window _ (by decide) s _ _ _ _⟩
    · exact ⟨_, [], h, (List.append_nil _).symm, seeOperation_host_nil _ (by decide)⟩
  · have hbytes : xbufBytes s s.a0.toNat ≠ [] := by
      simp only [xbufBytes, ne_eq, List.map_eq_nil_iff, List.range_eq_nil]
      omega
    exact ⟨_, _, exec_write_accepted hc hn h1 hx, sent_out _ s, seeOperation_host_piece _ (by decide) _ _ hbytes⟩
  · refine ⟨_, _, exec_hline_accepted hc hn hl hx hy, filled_out _ s, fun x y v hv => ?_⟩
    rw [seeOperation_fill _ (by decide) hn _ _ _ _ hl]
    exact seeNote_unlanded _ _ x y v hv (lands_falling _ _ (.inl (wireWindow_wrapped _ _ hl hstart hwrap)))

end Sys2Proof.Machine
end

section
/-! PROOFS. The two encodings (spec/30_encoding.md R90 to R94, R100 to R102, R110): what decodes and from which
code, the assembled line, and the frames of the WIRE rows run alone. -/

namespace Sys2Proof.Machine

open Sys2Proof.Laws

/-- Settles O1, by running the decoders. -/
theorem writtenOutWordsDecode : Obligations.WrittenOutWordsDecode :=
  ⟨rfl, rfl, rfl, rfl, rfl, rfl, rfl⟩

/-- Settles O2, by the round trip of each row. -/
theorem decodeOfEncodeIsTheInstruction : Obligations.DecodeOfEncodeIsTheInstruction := by
  intro i
  cases i with
  | panelCreate => exact RoundTrip.panelCreate
  | init => exact RoundTrip.init
  | setBacklight => exact RoundTrip.setBacklight
  | writeCommand => exact RoundTrip.writeCommand
  | write => exact RoundTrip.write
  | setWindow => exact RoundTrip.setWindow
  | drawPixel => exact RoundTrip.drawPixel
  | hline => exact RoundTrip.hline
  | vline => exact RoundTrip.vline
  | fillRect => exact RoundTrip.fillRect
  | line => exact RoundTrip.line
  | finishUpdate => exact RoundTrip.finishUpdate
  | keypadPoll => exact RoundTrip.keypadPoll
  | getBackBuffer => exact RoundTrip.getBackBuffer
  | getFrontBuffer => exact RoundTrip.getFrontBuffer
  | softwareReset => exact RoundTrip.softwareReset
  | sleepOut => exact RoundTrip.sleepOut
  | normalDisplayOn => exact RoundTrip.normalDisplayOn
  | inversionOn => exact RoundTrip.inversionOn
  | displayOn => exact RoundTrip.displayOn
  | columnAddressSet start stop => exact RoundTrip.columnAddressSet start stop
  | rowAddressSet start stop => exact RoundTrip.rowAddressSet start stop
  | memoryWrite payload => exact RoundTrip.memoryWrite payload
  | pixelFormat value => exact RoundTrip.pixelFormat value
  | memoryAccessControl value => exact RoundTrip.memoryAccessControl value

/-! ## Command words -/

/-- R92: each of the words 1 to 15 decodes to the operation it encodes. -/
theorem exists_decodeHost_of_legal {w : Word} (h1 : 1 ≤ w.toNat) (h15 : w.toNat ≤ 15) :
    ∃ i, decodeHost w = .ok i ∧ encode i = .host w ∧ i.wellFormed = true := by
  generalize hn : w.toNat = n at h1 h15
  obtain ⟨-, rfl⟩ := BitVec.toNat_eq_nat.1 hn
  interval_cases n <;> exact ⟨_, rfl, rfl, rfl⟩

/-- R94: every other word is rejected. -/
theorem exists_decodeHost_error {w : Word} (h : w.toNat = 0 ∨ 16 ≤ w.toNat) : ∃ e, decodeHost w = .error e := by
  unfold decodeHost
  split
  · exact ⟨_, rfl⟩
  · split
    case h_16 => exact ⟨_, rfl⟩
    all_goals omega

/-- R94: the legal words are 1 to 15. -/
theorem exists_decodeHost_iff (w : Word) : (∃ i, decodeHost w = .ok i) ↔ 1 ≤ w.toNat ∧ w.toNat ≤ 15 := by
  refine ⟨fun ⟨i, hi⟩ => ?_, fun ⟨h1, h15⟩ => ?_⟩
  · by_contra hw
    obtain ⟨e, he⟩ := exists_decodeHost_error (w := w) (by omega)
    rw [hi] at he
    cases he
  · obtain ⟨i, hi, -⟩ := exists_decodeHost_of_legal h1 h15
    exact ⟨i, hi⟩

/-- R91: bits 31:8 are zero in the words below 256. -/
theorem highBits_eq_zero_iff (w : Word) : w.extractLsb' 8 24 = 0 ↔ w.toNat < 256 := by
  have := w.isLt
  rw [← BitVec.toNat_inj, BitVec.extractLsb'_toNat, Nat.shiftRight_eq_div_pow]
  change w.toNat / 2 ^ 8 % 2 ^ 24 = 0 ↔ _
  omega

/-- Settles O4: the words that decode are 1 to 15, and the write of any other is a case of `stepRunsTheWrittenCommand`. -/
theorem onlyFifteenCommandWordsAreLegal : Obligations.OnlyFifteenCommandWordsAreLegal := by
  refine ⟨fun w => ?_, fun s w rest hp hf hw => ?_⟩
  · rw [exists_decodeHost_iff, highBits_eq_zero_iff]
    omega
  · rw [ne_eq, highBits_eq_zero_iff] at hw
    obtain ⟨e, he⟩ := exists_decodeHost_error (w := w) (by omega)
    obtain ⟨-, illegal, -⟩ := stepRunsTheWrittenCommand s w rest hp
    exact illegal hf e he

/-! ## What decodes is an encoding -/

/-- A word has the meaning of the operation that encodes it and no other. -/
theorem encode_of_decodeHost {w : Word} {i : Instr} (h : decodeHost w = .ok i) :
    encode i = .host w ∧ i.wellFormed = true := by
  obtain ⟨h1, h15⟩ := (exists_decodeHost_iff w).1 ⟨i, h⟩
  obtain ⟨j, hj, hcode⟩ := exists_decodeHost_of_legal h1 h15
  obtain rfl : i = j := Except.ok.inj (h.symm.trans hj)
  exact hcode

section Wire
/-! One lemma per class of wire commands, for any row of the class whose command byte is `b` (R100). -/

variable {b : Byte} {payload : List Byte} {i : Instr}

theorem encode_of_decodeAction {j : Instr} (hcode : encode j = .wire [b] ∧ j.wellFormed = true)
    (h : decodeAction j b payload = .ok i) : encode i = .wire (b :: payload) ∧ i.wellFormed = true := by
  unfold decodeAction at h
  split at h
  · next hnil =>
    cases h
    rwa [hnil]
  · cases h

theorem encode_of_decodeAddressSet {f : Half → Half → Instr}
    (hcode : ∀ start stop, encode (f start stop) = .wire (b :: (be16 start ++ be16 stop))
      ∧ (f start stop).wellFormed = true)
    (h : decodeAddressSet f b payload = .ok i) : encode i = .wire (b :: payload) ∧ i.wellFormed = true := by
  unfold decodeAddressSet at h
  split at h
  · next startHi startLo stopHi stopLo =>
    cases h
    have := hcode (ofBytes startHi startLo) (ofBytes stopHi stopLo)
    rwa [be16_ofBytes, be16_ofBytes] at this
  · cases h

theorem encode_of_decodeModeSet {f : Byte → Instr}
    (hcode : ∀ v, encode (f v) = .wire [b, v] ∧ (f v).wellFormed = true)
    (h : decodeModeSet f b payload = .ok i) : encode i = .wire (b :: payload) ∧ i.wellFormed = true := by
  unfold decodeModeSet at h
  split at h
  · cases h
    exact hcode _
  · cases h

theorem encode_of_decodeMemoryWrite (h : decodeMemoryWrite 0x2C payload = .ok i) :
    encode i = .wire (0x2C :: payload) ∧ i.wellFormed = true := by
  unfold decodeMemoryWrite at h
  split at h
  · next heven =>
    cases h
    exact ⟨rfl, beq_iff_eq.2 heven⟩
  · cases h

/-- A frame has the meaning of the well-formed operation that encodes it and no other. -/
theorem encode_of_decodeWire {frame : List Byte} (h : decodeWire frame = .ok i) :
    encode i = .wire frame ∧ i.wellFormed = true := by
  unfold decodeWire at h
  split at h
  · cases h
  · next b payload =>
    split at h
    case h_1 hb | h_2 hb | h_3 hb | h_4 hb | h_5 hb =>
      obtain ⟨-, rfl⟩ := BitVec.toNat_eq_nat.1 hb
      exact encode_of_decodeAction ⟨rfl, rfl⟩ h
    case h_6 hb | h_7 hb =>
      obtain ⟨-, rfl⟩ := BitVec.toNat_eq_nat.1 hb
      exact encode_of_decodeAddressSet (fun _ _ => ⟨rfl, rfl⟩) h
    case h_8 hb =>
      obtain ⟨-, rfl⟩ := BitVec.toNat_eq_nat.1 hb
      exact encode_of_decodeMemoryWrite h
    case h_9 hb | h_10 hb =>
      obtain ⟨-, rfl⟩ := BitVec.toNat_eq_nat.1 hb
      exact encode_of_decodeModeSet (fun _ => ⟨rfl, rfl⟩) h
    case h_11 => cases h

end Wire

/-- Settles O3, one lemma per encoding. -/
theorem encodeOfDecodeIsTheCode : Obligations.EncodeOfDecodeIsTheCode := by
  intro k i h
  cases k with
  | host w => exact encode_of_decodeHost h
  | wire frame => exact encode_of_decodeWire h

/-! ## Assembled lines -/

/-- R110: the operand at position `k` goes to register `n + k`. -/
theorem operandWrites_eq_mapIdx (n : Nat) (operands : List Word) :
    operandWrites n operands = operands.mapIdx fun k v => .writeReg (n + k) v := by
  induction operands generalizing n with
  | nil => rfl
  | cons v rest ih =>
    rw [operandWrites, ih, List.mapIdx_cons]
    simp only [Nat.add_zero, Nat.add_assoc, Nat.add_comm 1]

/-- R110: the line of an operation whose command word is `w`. -/
theorem assemble_of_encode_host {i : Instr} {w : Word} (h : encode i = .host w) (operands : List Word) :
    assemble i operands = (operands.mapIdx fun k v => .writeReg (3 + k) v) ++ [.writeReg 0 w] := by
  rw [assemble, h, ← operandWrites_eq_mapIdx]

/-- Settles O5, from the positions of the operand writes; the rule's example by running the assembler. -/
theorem assembledLineIsRegisterWrites : Obligations.AssembledLineIsRegisterWrites := by
  refine ⟨fun i operands w h => ?_, rfl⟩
  rw [assemble_of_encode_host h]
  refine ⟨by simp, List.getLast?_concat, fun k hk => ?_⟩
  rw [List.getElem?_append_left (by simpa using hk), List.getElem?_mapIdx, List.getElem?_eq_getElem hk, Option.map_some]

/-! ## The WIRE rows run alone -/

/-- R121: WriteCommand sends its one frame, or nothing on NULL. -/
theorem writeCommand_eq_framed (c : Cfg) (cmd : Byte) (data : Option (List Byte)) (s : State) :
    writeCommand c cmd data s = framed c s cmd data := by
  by_cases h : s.transport = .null
  · rw [writeCommand_null c cmd data s h, framed, if_pos h]
  · rw [writeCommand_sends c cmd data s h, framed, if_neg h]

/-- An operation that is one WriteCommand sends that frame. -/
theorem exec_eq_framed {i : Instr} {cmd : Byte} {data : Option (List Byte)} {s : State}
    (h : run i s = writeCommand Config.cfg cmd data s) : exec i s = .next (framed Config.cfg s cmd data) := by
  rw [exec_eq_run, h, writeCommand_eq_framed]

/-- Settles O28: every WIRE row is one WriteCommand. -/
theorem wireCommandsSendOneFrame : Obligations.WireCommandsSendOneFrame := fun _ =>
  ⟨exec_eq_framed rfl, exec_eq_framed rfl, exec_eq_framed rfl, exec_eq_framed rfl, exec_eq_framed rfl,
    fun _ _ => exec_eq_framed rfl, fun _ _ => exec_eq_framed rfl, exec_eq_framed rfl, fun _ _ => exec_eq_framed rfl,
    fun _ => exec_eq_framed rfl, fun _ => exec_eq_framed rfl⟩

end Sys2Proof.Machine
end

section
/-! PROOFS. The operations of the Panel Command Protocol (spec/40_panel_protocol.md R120 to R131) as the states and events
they leave: PANEL_CREATE, SET_BACKLIGHT, WRITE_COMMAND, WRITE and SET_WINDOW, and every operation on NULL. -/

namespace Sys2Proof.Machine

/-! ## The descriptor check -/

theorem needPanel_eq (body : State → State) (s : State) :
    needPanel body s = if s.created = false then faulted s 2 else body s := by
  by_cases h : s.created = false
  · rw [if_pos h, needPanel_uncreated body s h]
    rfl
  · rw [if_neg h, needPanel_created body s (Bool.of_not_eq_false h)]

/-- R240: an operation of the display takes NoPanel before creation and otherwise does what its body says. -/
theorem exec_of_needPanel {i : Instr} {body : State → State} (h : run i = needPanel body) {s t : State}
    (hbody : body s = t) : exec i s = .next (if s.created = false then faulted s 2 else t) := by
  rw [exec_eq_run, h, needPanel_eq, hbody]

/-! ## PANEL_CREATE -/

/-- R120: what PANEL_CREATE does before a creation with a transport it knows. -/
theorem exec_panelCreate_creates {s : State} {tr : Transport} (hc : s.created = false)
    (ht : transportOperand s.a0 = some tr) :
    exec .panelCreate s = .next (createDescriptor Config.cfg tr (u16 s.a1) (u16 s.a2) s) := by
  rw [exec_eq_run, run, opPanelCreate, if_neg (by simp [hc]), ht]

/-- R25: the values 0, 1 and 2 name a transport, whose code reads back as the value. -/
theorem exists_transportOperand {a : Word} (h : a.toNat ≤ 2) :
    ∃ tr, transportOperand a = some tr ∧ transportCode tr = a := by
  have ha : a = 0 ∨ a = 1 ∨ a = 2 := by bv_omega
  rcases ha with rfl | rfl | rfl
  · exact ⟨.null, rfl, rfl⟩
  · exact ⟨.serial, rfl, rfl⟩
  · exact ⟨.parallel, rfl, rfl⟩

/-- R27: a u16 operand reads back as the low 16 bits of its register. -/
theorem setWidth_u16 (a : Word) : (u16 a).setWidth 32 = a &&& 0xFFFF := by
  apply BitVec.eq_of_toNat_eq
  have mask : (0xFFFF : Word).toNat = 2 ^ 16 - 1 := rfl
  rw [BitVec.toNat_and, mask, Nat.and_two_pow_sub_one_eq_mod, u16, BitVec.toNat_setWidth, BitVec.toNat_setWidth]
  omega

/-- Settles O20, by the order of R120's checks and the two readings of ORIGIN_TABLE. -/
theorem panelCreateSetsTheDescriptor : Obligations.PanelCreateSetsTheDescriptor := by
  refine ⟨rfl, fun s => ?_⟩
  by_cases hc : s.created = true
  · rw [if_pos hc, exec_eq_run, run, opPanelCreate, if_pos hc]
    rfl
  · rw [if_neg hc]
    cases ht : transportOperand s.a0 with
    | none =>
      rw [exec_eq_run, run, opPanelCreate, if_neg hc, ht]
      rfl
    | some tr =>
      rw [exec_panelCreate_creates (Bool.eq_false_iff.2 hc) ht, createDescriptor]
      dsimp only
      rcases Config.cfg.originTable tr (u16 s.a1) (u16 s.a2) with _ | ⟨xs, ys⟩
      · rfl
      · rfl

/-- Settles O55: the descriptor's fields are the operands, and each reading of ORIGIN_TABLE fixes the rest. -/
theorem panelCreateCompletes : Obligations.PanelCreateCompletes := by
  intro s hc ha
  obtain ⟨tr, ht, hcode⟩ := exists_transportOperand ha
  rw [exec_panelCreate_creates hc ht, createDescriptor_eq]
  refine ⟨_, rfl, rfl, congrArg some hcode, congrArg some (setWidth_u16 s.a1), congrArg some (setWidth_u16 s.a2),
    fun xs ys horigin => ?_, fun horigin => ?_, rfl⟩
  · dsimp only at horigin ⊢
    rw [horigin]
    exact ⟨rfl, rfl, rfl, List.append_nil _⟩
  · dsimp only at horigin ⊢
    rw [horigin]
    exact ⟨rfl, rfl, rfl, rfl⟩

/-! ## SET_BACKLIGHT -/

theorem gamma_zero (c : Cfg) : c.gamma 0 = 0 := rfl

/-- R131: full level is a duty of 65534 or 65535. -/
theorem gamma_full (c : Cfg) : c.gamma 255 = 65534 ∨ c.gamma 255 = 65535 := by
  rw [Cfg.gamma, if_neg (by decide), if_pos rfl]
  cases c.gammaFull with
  | d65534 => exact .inl rfl
  | d65535 => exact .inr rfl

/-- Settles O27: after the two checks the body sets the duty and appends its event, and GAMMA's two ends are R131's. -/
theorem backlightDrivesTheGammaDuty : Obligations.BacklightDrivesTheGammaDuty :=
  ⟨rfl, fun _ => exec_of_needPanel rfl rfl, gamma_zero _, gamma_full _⟩

/-! ## WRITE_COMMAND and WRITE -/

/-- R121: the payload of an operation is absent exactly for length 0. -/
theorem payload?_xbufBytes (s : State) (a : Word) :
    payload? (xbufBytes s a.toNat) = if a = 0 then none else some ((List.range a.toNat).map (xbufCell s)) := by
  have hempty : xbufBytes s a.toNat = [] ↔ a = 0 := by
    rw [xbufBytes, List.map_eq_nil_iff, List.range_eq_nil, ← BitVec.toNat_inj]
    rfl
  rw [payload?, if_congr hempty rfl rfl, xbufBytes]

/-- R121 (C5): a frame drives the selector low for its command byte, where it has one, and then high. -/
theorem selectorDrives_frameEvents (c : Cfg) (t : Transport) (cmd : Byte) (data : Option (List Byte)) :
    selectorDrives (frameEvents c t cmd data) = if cmd = 0 then [true] else [false, true] := by
  unfold selectorDrives frameEvents
  by_cases h : cmd = 0
  · rw [if_pos h, if_pos h]
    cases data <;> rfl
  · rw [if_neg h, if_neg h]
    cases data <;> rfl

/-- Settles O22: after the two checks WRITE_COMMAND is one WriteCommand. -/
theorem writeCommandSendsOneFrame : Obligations.WriteCommandSendsOneFrame := by
  refine ⟨rfl, fun s => ⟨exec_of_needPanel rfl ?_, fun _ _ => selectorDrives_frameEvents ..⟩⟩
  rw [writeCommand_eq_framed, payload?_xbufBytes]
  rfl

/-- R127: RawWrite is one frame, with the memory-write command for the first piece on PARALLEL. -/
theorem rawWrite_eq_framed (c : Cfg) (bytes : List Byte) (first : Bool) (s : State) :
    rawWrite c bytes first s
      = framed c s (if s.transport = .parallel ∧ first = true then 0x2C else 0) (some bytes) := by
  rw [rawWrite, writeCommand_eq_framed, writeCommand_eq_framed]
  split <;> rfl

/-- Settles O23: after its checks WRITE is the first piece of a window write. -/
theorem writeSendsTheBuffer : Obligations.WriteSendsTheBuffer := by
  refine ⟨rfl, fun s => exec_of_needPanel rfl ?_⟩
  rw [rawWrite_eq_framed, xbufBytes]
  simp only [and_true]
  rfl

/-! ## SET_WINDOW -/

/-- R123, R124: the state SetWindow leaves. -/
theorem setWindow_snd (c : Cfg) (x0 y0 x1 y1 : Half) (s : State) :
    (setWindow c x0 y0 x1 y1 s).2
      = if x0.toNat ≤ x1.toNat ∧ y0.toNat ≤ y1.toNat ∧ x1.toNat < s.width.toNat ∧ y1.toNat < s.height.toNat
          ∧ s.transport ≠ .null then
          sent s (windowEvents c s x0 y0 x1 y1)
        else s := by
  by_cases hok : windowOk s x0 y0 x1 y1 = true
  · obtain ⟨hx, hy, hw, hh⟩ := (windowOk_iff ..).1 hok
    rw [setWindow_accepted c _ _ _ _ s hok]
    by_cases hn : s.transport = .null
    · rw [if_neg (by simp [hn]), addressWindow_null c _ _ _ _ s hn]
    · rw [if_pos ⟨hx, hy, hw, hh, hn⟩, addressWindow_sends c _ _ _ _ s hn]
  · rw [setWindow_rejected c _ _ _ _ s (Bool.eq_false_iff.2 hok),
      if_neg fun ⟨hx, hy, hw, hh, _⟩ => hok ((windowOk_iff ..).2 ⟨hx, hy, hw, hh⟩)]

/-- Settles O24: after NoPanel SET_WINDOW is one SetWindow, whose answer it drops. -/
theorem setWindowSendsOrRejects : Obligations.SetWindowSendsOrRejects :=
  ⟨rfl, fun s => exec_of_needPanel rfl (setWindow_snd _ _ _ _ _ s)⟩

/-- R125: the address-set frames of an accepted window. -/
theorem addressSets_windowEvents (c : Cfg) (s : State) (x0 y0 x1 y1 : Half) :
    (framesOf (windowEvents c s x0 y0 x1 y1)).filter isAddressSet
      = [⟨some 0x2A, be16 (x0 + s.xstart) ++ be16 (x1 + s.xstart)⟩,
          ⟨some 0x2B, be16 (y0 + s.ystart) ++ be16 (y1 + s.ystart)⟩] := by
  rw [(reads_window c s x0 y0 x1 y1).framesOf, windowFrames]
  split <;> rfl

/-- Settles O25: the frames of SET_WINDOW, read back from its events. -/
theorem setWindowIssuesTwoAddressSets : Obligations.SetWindowIssuesTwoAddressSets := by
  intro s hc hn
  have hexec := setWindowSendsOrRejects.2 s
  rw [if_neg (by simp [hc])] at hexec
  split at hexec
  · next h =>
    obtain ⟨hx, hy, hw, hh, -⟩ := h
    refine ⟨_, _, hexec, sent_out _ s, ?_⟩
    rw [if_pos ⟨hx, hy, hw, hh⟩]
    exact addressSets_windowEvents ..
  · next h =>
    refine ⟨s, [], hexec, (List.append_nil _).symm, ?_⟩
    rw [if_neg fun ⟨hx, hy, hw, hh⟩ => h ⟨hx, hy, hw, hh, hn⟩]

/-! ## The NULL transport -/

/-- R121 (D13): what sends nothing leaves OUT, the panel pins and the duty. -/
theorem Sends.unchanged_of_null {s t : State} {ev : List Event} (h : Sends s t ev) (hn : s.transport = .null) :
    t.out = s.out ∧ t.cs = s.cs ∧ t.dc = s.dc ∧ t.rst = s.rst ∧ t.blDuty = s.blDuty := by
  obtain rfl := h.null hn
  exact ⟨(congrArg State.out h.frame).trans (List.append_nil _), h.quiet rfl⟩

/-- Settles O29, by the effects of an operation: a poll and a creation are excluded, and the rest sends nothing. -/
theorem nullTransportSendsNothing : Obligations.NullTransportSendsNothing := by
  intro i s t hc hn hi h
  cases effect_of_exec h with
  | polls hpoll => exact absurd hpoll hi
  | results | faults => exact ⟨rfl, rfl, rfl, rfl, rfl⟩
  | creates _ huncreated => exact absurd hc (by simp [huncreated])
  | blits _ _ h => exact h.unchanged_of_null (s := blitBase Config.cfg s) hn
  | sends _ h => exact h.unchanged_of_null hn

end Sys2Proof.Machine
end

section
/-! PROOFS. INIT (spec/40_panel_protocol.md R128): the sequence it sends, part by part. -/

namespace Sys2Proof.Machine

section Sequence
variable (c : Cfg)

/-- A command step of INIT on a transport that is not NULL: its frame, then its delay. -/
theorem initStep_sends (cmd : Byte) (data : Option (List Byte)) (ms : Nat) (s : State) (h : s.transport ≠ .null) :
    initStep c cmd data ms s = sent s (stepEvents c s.transport cmd data ms) := by
  rw [initStep, writeCommand_sends c cmd data s h, stepEvents, ← sent_sent]
  rfl

/-- The state after the hard reset, which is left out where the panel has no reset line. -/
def afterHardReset (s : State) : State :=
  { s with rst := if c.hasRst then true else s.rst, out := s.out ++ hardResetEvents c }

theorem hardReset_ite (s : State) : (if c.hasRst then hardReset c s else s) = afterHardReset c s := by
  by_cases h : c.hasRst = true
  · rw [if_pos h, hardReset_eq, afterHardReset, hardResetEvents, if_pos h, if_pos h]
  · simp only [if_neg h, afterHardReset, hardResetEvents, List.append_nil]

/-- The events of the mode commands, from the software reset to normal mode. -/
def modeEvents (t : Transport) : List Event :=
  stepEvents c t 0x01 none 150 ++ stepEvents c t 0x11 none c.tSlpoutMs
    ++ stepEvents c t 0x3A (some [c.colmodValue]) c.tColmodMs ++ stepEvents c t 0x36 (some [c.madctlValue]) c.tMadctlMs
    ++ stepEvents c t 0x21 none c.tInvonMs ++ stepEvents c t 0x13 none c.tNoronMs

theorem initModes_sends (s : State) (h : s.transport ≠ .null) :
    initModes c s = sent (afterHardReset c s) (modeEvents c s.transport) := by
  have ht : (afterHardReset c s).transport = s.transport := rfl
  rw [initModes, hardReset_ite]
  simp only [initStep_sends, sent_transport, ht, ne_eq, h, not_false_eq_true, sent_sent, tSwresetMs, modeEvents]

theorem initTail_sends (s : State) (h : s.transport ≠ .null) :
    initTail c s = sent s ([.delayMs c.tFillMs] ++ stepEvents c s.transport 0x29 none c.tDisponMs) := by
  rw [initTail, initStep_sends c _ _ _ (delayMs c.tFillMs s) h]
  simp only [sent, delayMs, emit, List.append_assoc]

/-- The window of the whole panel is accepted unless the panel is empty (R124, R128). -/
theorem windowOk_whole (s : State) :
    windowOk s 0 0 (s.width - 1) (s.height - 1) = true ↔ ¬ (s.width = 0 ∨ s.height = 0) := by
  rw [windowOk_iff]
  bv_omega

/-- The black fill of INIT: one fill of the whole panel, or nothing on an empty one (R128). -/
theorem fillWindow_whole (s : State) (h : s.transport ≠ .null) (count : Nat) (color : Half) :
    fillWindow c 0 0 (s.width - 1) (s.height - 1) count color s
      = if s.width = 0 ∨ s.height = 0 then s
        else filled s (fillEvents c s 0 0 (s.width - 1) (s.height - 1) count color) := by
  rw [fillWindow_eq, drawn, if_neg h, if_congr (windowOk_whole s) rfl rfl, ite_not]

/-- The fill of INIT and what follows it. -/
theorem initTail_fillWindow_whole (s : State) (h : s.transport ≠ .null) (count : Nat) (color : Half) :
    initTail c (fillWindow c 0 0 (s.width - 1) (s.height - 1) count color s) =
      { sent s ((if s.width = 0 ∨ s.height = 0 then []
            else fillEvents c s 0 0 (s.width - 1) (s.height - 1) count color)
          ++ ([.delayMs c.tFillMs] ++ stepEvents c s.transport 0x29 none c.tDisponMs)) with
        stageGen := if s.width = 0 ∨ s.height = 0 then s.stageGen else s.stageGen + 1 } := by
  rw [fillWindow_whole c s h]
  by_cases hempty : s.width = 0 ∨ s.height = 0
  · rw [if_pos hempty, if_pos hempty, if_pos hempty, initTail_sends c s h]
    rfl
  · rw [if_neg hempty, if_neg hempty, if_neg hempty, initTail_sends c (filled s _) h, sent_filled]
    rfl

theorem initEvents_eq (s : State) :
    initEvents c s = hardResetEvents c ++ (modeEvents c s.transport
      ++ ((if s.width = 0 ∨ s.height = 0 then []
            else fillEvents c s 0 0 (s.width - 1) (s.height - 1) (s.width.toNat * s.height.toNat) 0)
        ++ ([.delayMs c.tFillMs] ++ stepEvents c s.transport 0x29 none c.tDisponMs))) := by
  simp only [initEvents, modeEvents, List.append_assoc]

/-- R128: INIT's sequence on a transport that is not NULL. -/
theorem initSequence_sends (s : State) (h : s.transport ≠ .null) :
    initSequence c s =
      { s with
        rst := if c.hasRst then true else s.rst
        cs := false
        dc := true
        out := s.out ++ initEvents c s
        stageGen := if s.width = 0 ∨ s.height = 0 then s.stageGen else s.stageGen + 1 } := by
  have hmodes : (sent (afterHardReset c s) (modeEvents c s.transport)).transport ≠ .null := h
  rw [initSequence_eq, initModes_sends c s h, initTail_fillWindow_whole c _ hmodes, sent_sent, initEvents_eq,
    ← List.append_assoc s.out]
  rfl

end Sequence

/-- Settles O26: after the two checks INIT is its sequence. -/
theorem initSendsTheSequence : Obligations.InitSendsTheSequence := by
  refine ⟨rfl, fun s => exec_of_needPanel rfl ?_⟩
  by_cases h : s.transport = .null
  · rw [if_pos h, if_pos h]
  · rw [if_neg h, if_neg h, initSequence_sends _ s h]

end Sys2Proof.Machine
end

section
/-! PROOFS. The fills of Primitive Drawing (spec/42_primitive_drawing.md R160 to R164): which windows are accepted, and the
frames of a fill's pixels. -/

namespace Sys2Proof.Machine

/-! ## Accepted windows -/

section Windows
variable (s : State) (x y w h : Half)

theorem windowOk_cell : windowOk s x y x y = true ↔ x.toNat < s.width.toNat ∧ y.toNat < s.height.toNat := by
  simp only [windowOk_iff, le_refl, true_and]

theorem windowOk_row :
    windowOk s x y (x + w - 1) y = true
      ↔ 1 ≤ w.toNat ∧ x.toNat + w.toNat ≤ s.width.toNat ∧ y.toNat < s.height.toNat := by
  rw [windowOk_iff, ← and_assoc (a := 1 ≤ w.toNat), ← run_fits]
  omega

theorem windowOk_column :
    windowOk s x y x (y + h - 1) = true
      ↔ 1 ≤ h.toNat ∧ y.toNat + h.toNat ≤ s.height.toNat ∧ x.toNat < s.width.toNat := by
  rw [windowOk_iff, ← and_assoc (a := 1 ≤ h.toNat), ← run_fits]
  omega

theorem windowOk_rect :
    windowOk s x y (x + w - 1) (y + h - 1) = true
      ↔ 1 ≤ w.toNat ∧ 1 ≤ h.toNat ∧ x.toNat + w.toNat ≤ s.width.toNat ∧ y.toNat + h.toNat ≤ s.height.toNat := by
  have hx := run_fits x w s.width
  have hy := run_fits y h s.height
  rw [windowOk_iff]
  tauto

end Windows

/-! ## The four fills -/

/-- R161: FillWindow with its window's check said in numbers. -/
theorem fillWindow_of_iff {c : Cfg} {s : State} {x0 y0 x1 y1 : Half} {fits : Prop} [Decidable fits]
    (h : windowOk s x0 y0 x1 y1 = true ↔ fits) (count : Nat) (color : Half) :
    fillWindow c x0 y0 x1 y1 count color s = if fits then drawn c s x0 y0 x1 y1 count color else s := by
  rw [fillWindow_eq, if_congr h rfl rfl]

/-- Settles O30: the window of one cell is accepted exactly when the cell is on the panel. -/
theorem drawPixelDrawsOneCell : Obligations.DrawPixelDrawsOneCell := by
  refine ⟨rfl, fun s => exec_of_needPanel rfl ?_⟩
  exact fillWindow_of_iff (windowOk_cell s _ _) _ _

/-- Settles O31: the window of a row is accepted exactly when the row is not empty and wholly on the panel. -/
theorem hlineDrawsWholeRunOrNothing : Obligations.HlineDrawsWholeRunOrNothing := by
  refine ⟨rfl, fun s => exec_of_needPanel rfl ?_⟩
  exact fillWindow_of_iff (windowOk_row s _ _ _) _ _

/-- Settles O32: the same for the window of a column. -/
theorem vlineDrawsWholeRunOrNothing : Obligations.VlineDrawsWholeRunOrNothing := by
  refine ⟨rfl, fun s => exec_of_needPanel rfl ?_⟩
  exact fillWindow_of_iff (windowOk_column s _ _ _) _ _

/-- Settles O33: the same for the window of a rectangle. -/
theorem fillRectDrawsWholeOrNothing : Obligations.FillRectDrawsWholeOrNothing := by
  refine ⟨rfl, fun s => exec_of_needPanel rfl ?_⟩
  exact fillWindow_of_iff (windowOk_rect s _ _ _ _) _ _

/-! ## Chunks -/

section Chunks
variable (t : Transport) (color : Half)

/-- Two bytes a pixel. -/
theorem chunkFrames_lengths (first : Bool) (sizes : List Nat) :
    (chunkFrames t color first sizes).map (·.data.length) = sizes.map (2 * ·) := by
  induction sizes generalizing first with
  | nil => rfl
  | cons n rest ih =>
    rw [chunkFrames, List.map_cons, List.map_cons, ih]
    congr 1
    exact (length_rep n (be16 color)).trans (Nat.mul_comm n 2)

theorem map_double_chunkSizes (count : Nat) :
    (chunkSizes count).map (2 * ·)
      = List.replicate (count / 128) 256 ++ (if count % 128 = 0 then [] else [2 * (count % 128)]) := by
  rw [chunkSizes, stagePixels, List.map_append, List.map_replicate, apply_ite (List.map (2 * ·))]
  rfl

/-- R127: only the first piece of a window write can carry the memory-write command. -/
theorem pieceFrame_command (first : Bool) (bytes : List Byte) :
    (pieceFrame t first bytes).command = if t = .parallel ∧ first = true then some 0x2C else none := by
  rw [pieceFrame, frameOf]
  split <;> rfl

theorem chunkFrames_later_command (sizes : List Nat) : ∀ f ∈ chunkFrames t color false sizes, f.command = none := by
  induction sizes with
  | nil => exact fun f hf => nomatch hf
  | cons n rest ih =>
    refine List.forall_mem_cons.2 ⟨?_, ih⟩
    rw [pieceFrame_command, if_neg (by simp)]

theorem chunkFrames_tail_command (first : Bool) (sizes : List Nat) :
    ∀ f ∈ (chunkFrames t color first sizes).tail, f.command = none := by
  cases sizes with
  | nil => exact fun f hf => nomatch hf
  | cons n rest => exact chunkFrames_later_command t color rest

theorem chunkFrames_head_command (sizes : List Nat) :
    ∀ f ∈ (chunkFrames t color true sizes).head?, f.command = if t = .parallel then some 0x2C else none := by
  cases sizes with
  | nil => exact fun f hf => nomatch hf
  | cons n rest =>
    rintro f ⟨⟩
    rw [pieceFrame_command]
    simp only [and_true]

end Chunks

/-- Settles O34, from the frames that the events are read back as. -/
theorem fillIsChunkedBy128 : Obligations.FillIsChunkedBy128 := by
  intro c t color count
  rw [(reads_chunks c t color true (chunkSizes count)).framesOf]
  refine ⟨?_, ?_, chunkFrames_tail_command t color true _, chunkFrames_head_command t color _⟩
  · rw [chunkFrames_lengths, map_double_chunkSizes]
  · rw [chunkFrames_data, chunkSizes_sum]

end Sys2Proof.Machine
end

section
/-! PROOFS. The line rasterizer (spec/42_primitive_drawing.md R170 to R173): what LINE sends, which pixels its runs have,
and how they follow one another. -/

namespace Sys2Proof.Machine

/-! ## What LINE sends -/

/-- Settles O35: after NoPanel the body draws the runs one by one. -/
theorem lineDrawsItsRuns : Obligations.LineDrawsItsRuns := by
  refine ⟨rfl, fun s hc => ?_, fun s hc => ?_⟩
  · rw [exec_eq_run, run, opLine, needPanel_uncreated _ s hc]
    rfl
  · obtain ⟨h, hrow⟩ := drew_emitRuns Config.cfg (lineSteep (s16 s.a0) (s16 s.a1) (s16 s.a2) (s16 s.a3)) (u16 s.a4)
      (lineRuns (s16 s.a0) (s16 s.a1) (s16 s.a2) (s16 s.a3)) s
    refine ⟨_, by rw [exec_eq_run, run, opLine, needPanel_created _ s hc], h.out,
      fun hne => h.pins fun he => hne (h.grew.2 he), fun he => h.quiet (h.grew.1 he), ?_⟩
    exact h.frame.trans (by rw [hrow])

/-- Settles O37: both orders have one slope class and one list of runs, and what a run sends does not read the
endpoints' registers. -/
theorem lineIsSymmetricInItsEndpoints : Obligations.LineIsSymmetricInItsEndpoints := by
  intro s
  obtain ⟨-, huncreated, hcreated⟩ := lineDrawsItsRuns
  by_cases hc : s.created = false
  · exact ⟨_, _, huncreated s hc, huncreated _ hc, rfl⟩
  · have hc : s.created = true := Bool.of_not_eq_false hc
    obtain ⟨t, ht, hout, -⟩ := hcreated s hc
    obtain ⟨u, hu, hout', -⟩ := hcreated { s with a0 := s.a2, a1 := s.a3, a2 := s.a0, a3 := s.a1 } hc
    refine ⟨t, u, ht, hu, ?_⟩
    rw [hout, hout', lineRuns_swap, lineSteep_swap]
    rfl

/-! ## The runs as one ordered loop -/

theorem lineRuns_of_flat {x0 y0 x1 y1 : Int} (h : lineSteep x0 y0 x1 y1 = false) (hx : x0 ≤ x1) :
    lineRuns x0 y0 x1 y1 = lineRunsOrdered x0 y0 x1 y1 := by
  rw [lineRuns, if_neg (by simp [h]), lineRunsMajor, if_neg (by omega)]

/-- A line steeper than 45 degrees is not after its transposition, and has the transposed line's runs (R172 (e)). -/
theorem lineSteep_transpose {x0 y0 x1 y1 : Int} (h : lineSteep x0 y0 x1 y1 = true) : lineSteep y0 x0 y1 x1 = false := by
  simp only [lineSteep, decide_eq_true_eq, decide_eq_false_iff_not] at h ⊢
  omega

theorem lineRuns_transpose {x0 y0 x1 y1 : Int} (h : lineSteep x0 y0 x1 y1 = true) :
    lineRuns x0 y0 x1 y1 = lineRuns y0 x0 y1 x1 := by
  rw [lineRuns, if_pos h, lineRuns, if_neg (by simp [lineSteep_transpose h])]

/-- Every line is drawn as a line between ordered endpoints (R170). -/
theorem exists_lineRuns_eq_ordered (x0 y0 x1 y1 : Int) :
    ∃ a b c d, lineRuns x0 y0 x1 y1 = lineRunsOrdered a b c d := by
  unfold lineRuns lineRunsMajor
  split <;> split <;> exact ⟨_, _, _, _, rfl⟩

section Loop
variable {x1 dx dy ystep : Int} {fuel : Nat} {x y err xs : Int}

/-- R170: the run is closed where the error term goes negative. -/
theorem lineLoop_closes (h : err - dy < 0) :
    lineLoop x1 dx dy ystep (fuel + 1) x y err xs
      = ⟨xs, y, x - xs + 1⟩ :: lineLoop x1 dx dy ystep fuel (x + 1) (y + ystep) (err - dy + dx) (x + 1) :=
  if_pos h

theorem lineLoop_goes_on (h : ¬ err - dy < 0) :
    lineLoop x1 dx dy ystep (fuel + 1) x y err xs = lineLoop x1 dx dy ystep fuel (x + 1) y (err - dy) xs :=
  if_neg h

end Loop

/-! ## How the runs follow one another -/

/-- The run `q` begins where `r` ends along the major axis, at another minor coordinate. -/
def Adjoins (r q : Run) : Prop := q.y ≠ r.y ∧ q.xs = r.xs + r.n

section Follow
variable (x1 dx dy ystep : Int)

/-- The first run of the loop is the one that is open. -/
theorem lineLoop_head (fuel : Nat) (x y err xs : Int) :
    ∀ r ∈ (lineLoop x1 dx dy ystep fuel x y err xs).head?, r.xs = xs ∧ r.y = y := by
  induction fuel generalizing x y err xs with
  | zero =>
    rw [lineLoop]
    split
    · rintro r ⟨⟩
      exact ⟨rfl, rfl⟩
    · exact fun r hr => nomatch hr
  | succ fuel ih =>
    by_cases h : err - dy < 0
    · rw [lineLoop_closes h]
      rintro r ⟨⟩
      exact ⟨rfl, rfl⟩
    · rw [lineLoop_goes_on h]
      exact ih _ _ _ _

theorem lineLoop_nonempty_runs (fuel : Nat) (x y err xs : Int) (hx : xs ≤ x) :
    ∀ r ∈ lineLoop x1 dx dy ystep fuel x y err xs, 1 ≤ r.n := by
  induction fuel generalizing x y err xs with
  | zero =>
    rw [lineLoop]
    split
    · exact List.forall_mem_singleton.2 (by dsimp only; omega)
    · exact fun r hr => nomatch hr
  | succ fuel ih =>
    by_cases h : err - dy < 0
    · rw [lineLoop_closes h]
      exact List.forall_mem_cons.2 ⟨by dsimp only; omega, ih _ _ _ _ le_rfl⟩
    · rw [lineLoop_goes_on h]
      exact ih _ _ _ _ (by omega)

theorem lineLoop_adjoins (hstep : ystep ≠ 0) (fuel : Nat) (x y err xs : Int) :
    (lineLoop x1 dx dy ystep fuel x y err xs).IsChain Adjoins := by
  induction fuel generalizing x y err xs with
  | zero =>
    rw [lineLoop]
    split
    · exact List.isChain_singleton _
    · exact List.isChain_nil
  | succ fuel ih =>
    by_cases h : err - dy < 0
    · rw [lineLoop_closes h, List.isChain_cons]
      refine ⟨fun q hq => ?_, ih ..⟩
      obtain ⟨hxs, hy⟩ := lineLoop_head _ _ _ _ _ _ _ _ _ q hq
      rw [Adjoins, hxs, hy]
      dsimp only
      omega
    · rw [lineLoop_goes_on h]
      exact ih ..

end Follow

/-- Settles O57: the loop closes a run and opens the next one beside it, a step further along the minor axis. -/
theorem lineRunsAreCoalesced : Obligations.LineRunsAreCoalesced := by
  intro x0 y0 x1 y1
  obtain ⟨a, b, c, d, he⟩ := exists_lineRuns_eq_ordered x0 y0 x1 y1
  rw [he, lineRunsOrdered]
  refine ⟨lineLoop_nonempty_runs _ _ _ _ _ _ _ _ _ le_rfl, fun k r q hr hq => ?_⟩
  obtain ⟨hk, rfl⟩ := List.getElem?_eq_some_iff.1 hr
  obtain ⟨hk', rfl⟩ := List.getElem?_eq_some_iff.1 hq
  exact List.isChain_iff_getElem.1 (lineLoop_adjoins _ _ _ _ (by split <;> decide) _ _ _ _ _) k hk'

/-! ## The closed form -/

/-- The negative error terms before distance `j` along the major axis (R172 (b)): (j * dy - dx div 2) / dx rounded up. -/
def minorSteps (dx dy : Int) (j : Nat) : Int := ((j : Int) * dy - dx / 2 + dx - 1) / dx

/-- The pixel of a line at distance `j` from its first endpoint. -/
def linePixel (x0 y0 dx dy ystep : Int) (j : Nat) : Int × Int := (x0 + (j : Int), y0 + ystep * minorSteps dx dy j)

/-- The error term of R170's loop at distance `j` after `k` steps along the minor axis. -/
structure LineError (dx dy : Int) (j : Nat) (k err : Int) : Prop where
  value : err = dx / 2 - (j : Int) * dy + k * dx
  nonneg : 0 ≤ err
  below : 0 < dx → err < dx
  /-- A point takes no step. -/
  point : dx = 0 → k = 0

namespace LineError
variable {dx dy : Int} {j : Nat} {k err : Int}

theorem start (h : 0 ≤ dx) : LineError dx dy 0 0 (dx / 2) :=
  ⟨by simp, by omega, fun _ => by omega, fun _ => rfl⟩

theorem closes (h : LineError dx dy j k err) (hdy : dy ≤ dx) (hneg : err - dy < 0) :
    LineError dx dy (j + 1) (k + 1) (err - dy + dx) where
  value := by rw [h.value]; push_cast; ring
  nonneg := by have := h.nonneg; omega
  below := by omega
  point := by have := h.nonneg; omega

theorem goes_on (h : LineError dx dy j k err) (h0 : 0 ≤ dy) (hneg : ¬ err - dy < 0) :
    LineError dx dy (j + 1) k (err - dy) where
  value := by rw [h.value]; push_cast; ring
  nonneg := by omega
  below hdx := by have := h.below hdx; omega
  point := h.point

/-- The error term lies below dx, so the steps taken are the quotient rounded up. -/
theorem steps (h : LineError dx dy j k err) (h0 : 0 ≤ dx) : k = minorSteps dx dy j := by
  rcases h0.eq_or_lt with rfl | hpos
  · rw [h.point rfl, minorSteps, Int.ediv_zero]
  · have hsplit : (j : Int) * dy - dx / 2 + dx - 1 = (dx - 1 - err) + k * dx := by rw [h.value]; ring
    have := h.nonneg
    have := h.below hpos
    rw [minorSteps, hsplit, Int.add_mul_ediv_right _ _ hpos.ne', Int.ediv_eq_zero_of_lt (by omega) (by omega), zero_add]

end LineError

theorem runPixels_empty (x y : Int) : runPixels ⟨x, y, 0⟩ = [] := rfl

theorem runPixels_succ {xs x : Int} (y : Int) (h : xs ≤ x) :
    runPixels ⟨xs, y, x - xs + 1⟩ = runPixels ⟨xs, y, x - xs⟩ ++ [(x, y)] := by
  obtain ⟨n, rfl⟩ := Int.le.dest h
  have hn : (xs + (n : Int) - xs).toNat = n := by omega
  have hn1 : (xs + (n : Int) - xs + 1).toNat = n + 1 := by omega
  simp only [runPixels, hn, hn1, List.range_succ, List.map_append, List.map_singleton]

/-- R172 (b): the pixels of the loop from distance `j` on are those of the open run and then the closed form's. -/
theorem lineLoop_pixels {x0 y0 x1 dx dy ystep : Int} (h0 : 0 ≤ dy) (hdy : dy ≤ dx) {fuel j : Nat} {k err xs : Int}
    (he : LineError dx dy j k err) (hxs : xs ≤ x0 + (j : Int)) (hfuel : x1 + 1 = x0 + (j : Int) + (fuel : Int)) :
    (lineLoop x1 dx dy ystep fuel (x0 + (j : Int)) (y0 + ystep * k) err xs).flatMap runPixels
      = runPixels ⟨xs, y0 + ystep * k, x0 + (j : Int) - xs⟩
        ++ (List.range' j fuel).map (linePixel x0 y0 dx dy ystep) := by
  induction fuel generalizing j k err xs with
  | zero =>
    have hx1 : x0 + (j : Int) = x1 + 1 := by simpa using hfuel.symm
    rw [List.range'_zero, List.map_nil, List.append_nil, lineLoop, hx1]
    split
    · rw [List.flatMap_singleton]
      congr 2
      ring
    · rw [show xs = x1 + 1 by omega, sub_self, runPixels_empty, List.flatMap_nil]
  | succ fuel ih =>
    have hnext : x0 + (j : Int) + 1 = x0 + ((j + 1 : Nat) : Int) := by push_cast; ring
    have hfuel' : x1 + 1 = x0 + ((j + 1 : Nat) : Int) + (fuel : Int) := by push_cast at hfuel ⊢; omega
    have hpixel : linePixel x0 y0 dx dy ystep j = (x0 + (j : Int), y0 + ystep * k) := by
      rw [linePixel, ← he.steps (h0.trans hdy)]
    have hopen := runPixels_succ (y0 + ystep * k) hxs
    rw [List.range'_succ, List.map_cons, hpixel, List.append_cons, ← hopen]
    by_cases hneg : err - dy < 0
    · have hy : y0 + ystep * k + ystep = y0 + ystep * (k + 1) := by ring
      rw [lineLoop_closes hneg, List.flatMap_cons, hnext, hy, ih (he.closes hdy hneg) le_rfl hfuel', sub_self,
        runPixels_empty, List.nil_append]
    · rw [lineLoop_goes_on hneg, hnext, ih (he.goes_on h0 hneg) (by omega) hfuel', ← hnext]
      congr 3
      ring

/-- R172 (a), (b): the pixels of a line between ordered endpoints that is not steep. -/
theorem lineRunsOrdered_pixels {x0 y0 x1 y1 : Int} (hx : x0 ≤ x1) (hflat : ((y1 - y0).natAbs : Int) ≤ x1 - x0) :
    (lineRunsOrdered x0 y0 x1 y1).flatMap runPixels
      = (List.range ((x1 - x0).toNat + 1)).map
          (linePixel x0 y0 (x1 - x0) (y1 - y0).natAbs (if y0 < y1 then 1 else -1)) := by
  have h := lineLoop_pixels (x0 := x0) (y0 := y0) (x1 := x1) (ystep := if y0 < y1 then 1 else -1)
    (fuel := (x1 - x0).toNat + 1) (xs := x0) (Int.natCast_nonneg _) hflat (.start (by omega)) (by simp)
    (by push_cast; omega)
  rw [List.range_eq_range']
  simpa [lineRunsOrdered, runPixels_empty] using h

/-- Settles O36: the loop's pixels in closed form, and R170's exchange and transposition. -/
theorem lineRunsMatchTheClosedForm : Obligations.LineRunsMatchTheClosedForm := by
  refine ⟨fun x0 y0 x1 y1 h hx => ?_, fun x0 y0 x1 y1 _ _ => (lineRuns_swap x0 y0 x1 y1).symm,
    fun x0 y0 x1 y1 h => ⟨lineSteep_transpose h, lineRuns_transpose h⟩⟩
  have hflat : ((y1 - y0).natAbs : Int) ≤ x1 - x0 := by
    simp only [lineSteep, decide_eq_false_iff_not] at h
    omega
  rw [lineRuns_of_flat h hx, lineRunsOrdered_pixels hx hflat]
  rfl

/-- Settles O38: R170's loop, run on the example of R173. -/
theorem lineReferenceTable : Obligations.LineReferenceTable := by
  have hruns : lineRuns 0 0 4 2 = [⟨0, 0, 2⟩, ⟨2, 1, 2⟩, ⟨4, 2, 1⟩] := by decide
  exact ⟨by rw [hruns]; rfl, hruns⟩

end Sys2Proof.Machine
end

section
/-! PROOFS. The Pixel Converter (spec/43_pixel_converter.md R190, R191): the fields of the natural value and the order
of the stored value's bytes. -/

namespace Sys2Proof.Machine

/-- R190: the natural value is the three kept fields side by side. They do not overlap, and no shift drops a bit. -/
theorem rgb565_eq_append (r g b : Byte) :
    rgb565 r g b = r.extractLsb' 3 5 ++ (g.extractLsb' 2 6 ++ b.extractLsb' 3 5) := by
  have hr := r.isLt
  have hg := g.isLt
  have hb := b.isLt
  apply BitVec.eq_of_toNat_eq
  simp only [rgb565, BitVec.toNat_or, BitVec.toNat_shiftLeft, BitVec.toNat_setWidth, BitVec.toNat_ushiftRight,
    BitVec.toNat_append, BitVec.extractLsb'_toNat, Nat.shiftLeft_eq, Nat.shiftRight_eq_div_pow, Nat.or_assoc]
  simp (disch := omega) only [Nat.mod_eq_of_lt]

theorem rgb565_red (r g b : Byte) : (rgb565 r g b).extractLsb' 11 5 = r.extractLsb' 3 5 := by
  rw [rgb565_eq_append]
  exact BitVec.extractLsb'_append_eq_left

theorem rgb565_green (r g b : Byte) : (rgb565 r g b).extractLsb' 5 6 = g.extractLsb' 2 6 := by
  rw [rgb565_eq_append, BitVec.extractLsb'_append_eq_of_add_le (by decide)]
  exact BitVec.extractLsb'_append_eq_left

theorem rgb565_blue (r g b : Byte) : (rgb565 r g b).extractLsb' 0 5 = b.extractLsb' 3 5 := by
  rw [rgb565_eq_append, BitVec.extractLsb'_append_eq_of_add_le (by decide)]
  exact BitVec.extractLsb'_append_eq_right

/-- Settles O39: the three fields of the natural value (R190), and `swap16`'s laws at it (R191). -/
theorem rgb565FieldsAndSwap : Obligations.Rgb565FieldsAndSwap := fun r g b =>
  ⟨rgb565_red r g b, rgb565_green r g b, rgb565_blue r g b, rfl, swap16_swap16 _, le16_stored r g b⟩

end Sys2Proof.Machine
end

section
/-! PROOFS. The Frame Blit Pipeline (spec/44_frame_blit.md R200 to R208): what FINISH_UPDATE does at each of its checks
and after them, when the buffer flag changes, and the two buffer requests. -/

namespace Sys2Proof.Machine

/-! ## The buffer requests -/

theorem opGetBackBuffer_eq (c : Cfg) (s : State) :
    opGetBackBuffer c s = { s with r0 := if c.buffering = .double then (if s.fbSel then 1 else 0) else 0 } := by
  unfold opGetBackBuffer
  cases c.buffering <;> rfl

theorem opGetFrontBuffer_eq (c : Cfg) (s : State) :
    opGetFrontBuffer c s = { s with r0 := if c.buffering = .double then (if s.fbSel then 0 else 1) else 0 } := by
  unfold opGetFrontBuffer
  cases c.buffering
  · rfl
  · cases h : s.fbSel <;> rfl

/-- Settles O42: R0 by the buffering mode and, in double mode, by the flag. -/
theorem bufferRequestsAnswer : Obligations.BufferRequestsAnswer := by
  refine ⟨rfl, rfl, fun s => ⟨?_, ?_⟩⟩
  · rw [exec_eq_run, run, opGetBackBuffer_eq]
  · rw [exec_eq_run, run, opGetFrontBuffer_eq]

/-! ## The buffer flag -/

/-- R206, R201: an operation leaves the flag, with a fault taken when it is FINISH_UPDATE, or it is a FINISH_UPDATE that
sends its frame, takes no fault and toggles the flag in double mode. -/
theorem Effect.fbSel {i : Instr} {s t : State} (h : Effect i s t) :
    t.fbSel = s.fbSel ∧ (i = .finishUpdate → t.fault = true)
      ∨ i = .finishUpdate ∧ t.fault = s.fault
        ∧ t.fbSel = if Config.cfg.buffering = .double then !s.fbSel else s.fbSel := by
  cases h with
  | polls hi => exact .inl ⟨rfl, fun h => absurd h (by simp [hi])⟩
  | results hi v => exact .inl ⟨rfl, fun h => absurd hi (by simp [h])⟩
  | faults => exact .inl ⟨rfl, fun _ => rfl⟩
  | creates hi => exact .inl ⟨by rw [createDescriptor_eq], fun h => absurd h (by simp [hi])⟩
  | blits hi _ h => rw [h.frame]; exact .inr ⟨hi, rfl, rfl⟩
  | sends hi h => rw [h.frame]; exact .inl ⟨rfl, fun h => absurd h hi.2⟩

/-- Settles O43: the one effect that moves the flag is that of a FINISH_UPDATE that sends its frame. -/
theorem bufferFlagTogglesOncePerFrame : Obligations.BufferFlagTogglesOncePerFrame := by
  intro i s t h
  rcases (effect_of_exec h).fbSel with ⟨hkeep, hfault⟩ | ⟨hi, hfault, htoggle⟩
  · exact ⟨fun _ => hkeep, fun hi _ _ hf => absurd (hfault hi) (by simp [hf]), fun _ _ _ => hkeep⟩
  · refine ⟨fun hor => ?_, fun _ _ _ _ => htoggle, fun _ hs ht => absurd (hfault.symm.trans ht) (by simp [hs])⟩
    have single : Config.cfg.buffering = .single := hor.resolve_left fun hne => hne hi
    rw [htoggle, if_neg (by simp [single])]

/-! ## FINISH_UPDATE -/

/-- The checks of FINISH_UPDATE are passed, by a frame of `height` rows of `n` pixels (R200, R201). -/
structure PassesChecks (c : Cfg) (s : State) (n height : Nat) : Prop where
  created : s.created = true
  rowLength : n = (u16 s.a1).toNat * c.wmul
  rows : height = (u16 s.a2).toNat
  buffer : s.a0.toNat < c.nbuf
  rowFits : n ≤ c.rowbufPixels
  frameFits : n * height ≤ 2 * c.fbCells

/-- The checks in their order, each with its fault, and the frame after them. -/
theorem opFinishUpdate_eq (c : Cfg) (s : State) :
    opFinishUpdate c s =
      if s.created = false then faulted s 2
      else if c.nbuf ≤ s.a0.toNat then faulted s 6
      else if c.rowbufPixels < (u16 s.a1).toNat * c.wmul then faulted s 7
      else if 2 * c.fbCells < (u16 s.a1).toNat * c.wmul * (u16 s.a2).toNat then faulted s 6
      else blitFrame c s.a0.toNat ((u16 s.a1).toNat * c.wmul) (u16 s.a2).toNat s := by
  rw [opFinishUpdate, needPanel_eq]
  rfl

/-- What is sent does not read the buffer flag. -/
theorem Drew.withFbSel {s t : State} {ev : List Event} (d : Drew s t ev) (b : Bool) :
    Drew { s with fbSel := b } { t with fbSel := b } ev where
  out := d.out
  pins := d.pins
  quiet := d.quiet
  frame := by rw [d.frame]

/-- The frame after the checks: LUT and the buffer flag as R192 and R206 say, and the rows in order (R200). -/
theorem drew_blitFrame (c : Cfg) (buf : Nat) {n height : Nat} (hn : n ≤ 65535) (hh : height ≤ 65535) (s : State) :
    Drew (blitBase c s) (blitFrame c buf n height s)
        (if s.transport = .null then [] else (List.range height).flatMap (rowEvents c s buf n height))
      ∧ (blitFrame c buf n height s).stageGen = s.stageGen := by
  obtain ⟨d, hstage⟩ := drew_blitRows c s buf n height hn hh (List.range height) (fun _ => List.mem_range.1)
    (convertPalette s) (sameFrame_convertPalette s buf)
  have flag := congrArg State.fbSel d.frame
  rw [blitFrame, toggleBuffers_eq, blitRows, convertPalette_width, convertPalette_height, flag]
  exact ⟨d.withFbSel _, hstage⟩

/-- What FINISH_UPDATE leaves when its checks are passed. -/
theorem PassesChecks.drew {c : Cfg} {s : State} {n height : Nat} (h : PassesChecks c s n height) :
    Drew (blitBase c s) (opFinishUpdate c s)
        (if s.transport = .null then [] else (List.range height).flatMap (rowEvents c s s.a0.toNat n height))
      ∧ (opFinishUpdate c s).stageGen = s.stageGen := by
  have hh : height ≤ 65535 := by
    have := (u16 s.a2).isLt
    have := h.rows
    omega
  rw [opFinishUpdate_passes c s n height h.created h.rowLength h.rows h.buffer h.rowFits h.frameFits]
  exact drew_blitFrame c _ (h.rowFits.trans (rowbufPixels_le c)) hh s

/-- On a transport that is not NULL the rows are appended to OUT. -/
theorem PassesChecks.out {c : Cfg} {s : State} {n height : Nat} (h : PassesChecks c s n height)
    (ht : s.transport ≠ .null) :
    (opFinishUpdate c s).out = s.out ++ (List.range height).flatMap (rowEvents c s s.a0.toNat n height) := by
  have := h.drew.1.out
  rwa [if_neg ht] at this

/-- R191, R192: a converted LUT cell is the natural value of its palette entry, swapped. -/
theorem lutCell_blitBase (c : Cfg) (s : State) {i : Nat} (hi : i < 256) :
    lutCell (blitBase c s) i = swap16 (naturalEntry s i) := lutCell_convertPalette s i hi

/-- Settles O40: the checks one by one, then the rows of a frame that passes them. -/
theorem finishUpdateSendsTheCentredFrame : Obligations.FinishUpdateSendsTheCentredFrame := by
  refine ⟨rfl, fun s => ⟨exec_eq_run .finishUpdate s, fun c n height hn hh => ?_⟩⟩
  subst hn hh
  split
  · next h0 => rw [opFinishUpdate_eq, if_pos h0]
  next h0 =>
  split
  · next h1 => rw [opFinishUpdate_eq, if_neg h0, if_pos h1]
  next h1 =>
  split
  · next h2 => rw [opFinishUpdate_eq, if_neg h0, if_neg h1, if_pos h2]
  next h2 =>
  split
  · next h3 => rw [opFinishUpdate_eq, if_neg h0, if_neg h1, if_neg h2, if_pos h3]
  next h3 =>
  obtain ⟨d, hstage⟩ := PassesChecks.drew (c := c)
    ⟨Bool.of_not_eq_false h0, rfl, rfl, Nat.not_le.1 h1, Nat.not_lt.1 h2, Nat.not_lt.1 h3⟩
  have hlut : (opFinishUpdate c s).lut = (blitBase c s).lut := by rw [d.frame]
  have hflag : (opFinishUpdate c s).fbSel = (blitBase c s).fbSel := by rw [d.frame]
  refine ⟨_, rfl, fun i hi => ?_, d.out, fun hne => d.pins (mt d.grew.2 hne),
    fun he => d.quiet (d.grew.1 he), hflag, ?_⟩
  · rw [d.frame]
    exact lutCell_blitBase c s hi
  · rw [hlut, hflag]
    exact d.frame.trans (by rw [hstage]; rfl)

/-- The first index byte of a buffer is the low byte of its first cell (R202). -/
theorem frameIndex_zero (s : State) (buf : Nat) : frameIndex s buf 0 = lo8 (fbCell s buf 0) := rfl

/-- Settles O41: the one row of the frame is one window at offset 119 on both axes and one piece. -/
theorem oneByOneFrameIsCentred : Obligations.OneByOneFrameIsCentred := by
  intro c s hmul hc ht hw hh hx hy ha0 ha1 ha2
  have passes : PassesChecks c s 1 1 :=
    { created := hc
      rowLength := by rw [ha1, Cfg.wmul, hmul]; rfl
      rows := by rw [ha2]; rfl
      buffer := by rw [ha0, Cfg.nbuf]; cases c.buffering <;> decide
      rowFits := by rw [Cfg.rowbufPixels]; omega
      frameFits := by rw [Cfg.fbCells]; omega }
  refine ⟨_, passes.out ht, ?_⟩
  have row : (List.range 1).flatMap (rowEvents c s s.a0.toNat 1 1)
      = windowEvents c s 119 119 119 119 ++ pieceEvents c s.transport true (rowWireBytes s 0 1 0) := by
    simp [rowEvents, frameOffset, hw, hh, ha0]
  have bytes : rowWireBytes s 0 1 0 = be16 (naturalEntry s (lo8 (fbCell s 0 0)).toNat) := by
    simp [rowWireBytes, frameIndex_zero]
  have address : be16 (119 + 0 : Half) ++ be16 (119 + 0 : Half) = [0x00, 0x77, 0x00, 0x77] := by decide
  rw [row, ((reads_window c s _ _ _ _).append (reads_piece c _ true _)).framesOf, bytes, windowFrames, hx, hy, address]
  cases h : s.transport with
  | null => exact absurd h ht
  | serial => simp [frameOf, pieceFrame]
  | parallel => simp [frameOf, pieceFrame]

end Sys2Proof.Machine
end

section
/-! PROOFS. What the panel observer knows after a FINISH_UPDATE (spec/44_frame_blit.md R200 to R204, spec/20_memory.md
R75, R76): every row that fits the panel is one window write, and the rows lie below one another. -/

namespace Sys2Proof.Machine

/-! ## A row's frames and its note -/

/-- The pixels of row `r` of a frame of `n` pixels a row: the natural value of each index byte's entry (R204). -/
def rowPixels (s : State) (buf n r : Nat) : List Half :=
  (List.range n).map fun k => naturalEntry s (frameIndex s buf (r * n + k)).toNat

theorem rowWireBytes_eq (s : State) (buf n r : Nat) :
    rowWireBytes s buf n r = ((rowPixels s buf n r).map be16).flatten := by
  rw [rowWireBytes, rowPixels, List.map_map]
  rfl

@[simp] theorem length_rowPixels (s : State) (buf n r : Nat) : (rowPixels s buf n r).length = n := by
  simp [rowPixels]

theorem getElem?_rowPixels (s : State) (buf r : Nat) {n k : Nat} (hk : k < n) :
    (rowPixels s buf n r)[k]? = some (naturalEntry s (frameIndex s buf (r * n + k)).toNat) := by
  simp [rowPixels, hk]

/-- The bounds of row `r` on the wire. -/
def rowWindow (s : State) (n height r : Nat) : Window :=
  wireWindow s (BitVec.ofNat 16 (frameOffset s.width.toNat n)) (BitVec.ofNat 16 (frameOffset s.height.toNat height + r))
    (BitVec.ofNat 16 (frameOffset s.width.toNat n + n - 1)) (BitVec.ofNat 16 (frameOffset s.height.toNat height + r))

/-- The frames that `rowEvents` puts on the wire. -/
def rowFrames (s : State) (buf n height r : Nat) : List WireFrame :=
  if 1 ≤ n ∧ n ≤ s.width.toNat ∧ frameOffset s.height.toNat height + r < s.height.toNat then
    windowFrames s (BitVec.ofNat 16 (frameOffset s.width.toNat n))
        (BitVec.ofNat 16 (frameOffset s.height.toNat height + r))
        (BitVec.ofNat 16 (frameOffset s.width.toNat n + n - 1))
        (BitVec.ofNat 16 (frameOffset s.height.toNat height + r))
      ++ [pieceFrame s.transport true (rowWireBytes s buf n r)]
  else []

/-- What the observer notes of a row: one window write, nothing when it does not fit the panel. -/
def rowNotes (s : State) (buf n height r : Nat) : List PanelNote :=
  if 1 ≤ n ∧ n ≤ s.width.toNat ∧ frameOffset s.height.toNat height + r < s.height.toNat then
    [.write (rowWindow s n height r) (rowWireBytes s buf n r)]
  else []

theorem reads_row (c : Cfg) (s : State) (buf n height r : Nat) :
    Reads (rowEvents c s buf n height r) (rowFrames s buf n height r) := by
  simp only [rowEvents, rowFrames]
  split
  · exact (reads_window c s _ _ _ _).append (reads_piece c _ true _)
  · exact Reads.nil

/-- Each row closes the write of the row before it. -/
theorem panelNotesFrom_rows (c : Cfg) {s : State} (ht : s.transport ≠ .null) (buf n height : Nat) (rows : List Nat)
    (p : PanelPhase) :
    panelNotesFrom c p (rows.flatMap (rowFrames s buf n height))
      = closePhase p ++ rows.flatMap (rowNotes s buf n height) := by
  induction rows generalizing p with
  | nil => exact (List.append_nil _).symm
  | cons r rest ih =>
    rw [List.flatMap_cons, List.flatMap_cons, rowFrames, rowNotes]
    split
    · rw [List.append_assoc, List.singleton_append, panelNotesFrom_window c p s _ _ _ _ _ _ ht, ih]
      rfl
    · exact ih p

/-- The observer reads a blit row by row. -/
theorem seeOperation_rows (c : Cfg) {s : State} (ht : s.transport ≠ .null) (buf n height : Nat) (rows : List Nat)
    (x y : Nat) (v : CellView) :
    seeOperation c .finishUpdate (rows.flatMap (rowEvents c s buf n height)) x y v
      = (rows.flatMap (rowNotes s buf n height)).foldl (seeNote x y) v := by
  rw [seeOperation, operationNotes_generated c _ _ (by decide), panelNotes,
    (reads_flatMap _ _ (reads_row c s buf n height) rows).framesOf, panelNotesFrom_rows c ht]
  rfl

/-! ## Where the rows land -/

/-- The first column and the first row of a frame on the panel, origin added (R203). -/
def frameLeft (s : State) (n : Nat) : Nat := s.xstart.toNat + frameOffset s.width.toNat n
def frameTop (s : State) (height : Nat) : Nat := s.ystart.toNat + frameOffset s.height.toNat height

/-- The cell at column `x`, row `y` of the panel as a frame's rows leave it (R204). -/
def frameCell (s : State) (buf n height x y : Nat) : CellView :=
  ⟨some (naturalEntry s (frameIndex s buf ((y - frameTop s height) * n + (x - frameLeft s n))).toNat), false⟩

/-- The cells of a row's window. -/
theorem contains_row {x0 y0 w : Nat} (hw : 1 ≤ w) (x y : Nat) :
    Window.contains ⟨x0, x0 + w - 1, y0, y0⟩ x y = true ↔ x0 ≤ x ∧ x < x0 + w ∧ y = y0 :=
  (contains_rect (w := w) (h := 1) hw le_rfl x y).trans (by omega)

section OnPanel
variable {s : State} {n : Nat} (h1 : 1 ≤ n) (hw : n ≤ s.width.toNat)
  (hxs : s.xstart.toNat + s.width.toNat ≤ 65536) (hys : s.ystart.toNat + s.height.toNat ≤ 65536)
include h1 hw hxs hys

/-- Where no offset wraps, the window of a row is the row offset by the origin. -/
theorem rowWindow_eq {height r : Nat} (hr : frameOffset s.height.toNat height + r < s.height.toNat) :
    rowWindow s n height r =
      ⟨frameLeft s n, frameLeft s n + n - 1, frameTop s height + r, frameTop s height + r⟩ := by
  have hfit : frameOffset s.width.toNat n + n ≤ s.width.toNat := centre_fits s.width.toNat n hw
  simp only [rowWindow, wireWindow, frameLeft, frameTop, BitVec.toNat_add, BitVec.toNat_ofNat, Window.mk.injEq]
  omega

/-- A row that fits lands by case (a) of R76, and paints its own cells. -/
theorem seeNote_row (buf : Nat) {height r : Nat} (hr : frameOffset s.height.toNat height + r < s.height.toNat)
    (x y : Nat) {v : CellView} (hv : v.lost = false) :
    seeNote x y v (.write (rowWindow s n height r) (rowWireBytes s buf n r)) =
      if frameLeft s n ≤ x ∧ x < frameLeft s n + n ∧ y = frameTop s height + r then frameCell s buf n height x y
      else v := by
  have hcols : (rowPixels s buf n r).length = frameLeft s n + n - 1 - frameLeft s n + 1 := by
    rw [length_rowPixels]
    omega
  rw [rowWindow_eq h1 hw hxs hys hr, rowWireBytes_eq,
    seeNote_landed _ _ x y v hv (lands_row _ _ (by dsimp only; omega) rfl hcols), landing_row _ _ x y rfl hcols]
  by_cases hin : frameLeft s n ≤ x ∧ x < frameLeft s n + n ∧ y = frameTop s height + r
  · rw [if_pos hin, if_pos ((contains_row h1 x y).2 hin)]
    obtain ⟨hleft, hright, rfl⟩ := hin
    rw [getElem?_rowPixels s buf r (by dsimp only; omega), frameCell, Nat.add_sub_cancel_left]
  · rw [if_neg hin, if_neg (mt (contains_row h1 x y).1 hin)]

/-- One row of the blit, whether it fits the panel or not. -/
theorem seeNotes_row (buf height r x y : Nat) {v : CellView} (hv : v.lost = false) :
    (rowNotes s buf n height r).foldl (seeNote x y) v =
      if frameLeft s n ≤ x ∧ x < frameLeft s n + n ∧ y = frameTop s height + r
          ∧ y < s.ystart.toNat + s.height.toNat then
        frameCell s buf n height x y
      else v := by
  have htop : frameTop s height = s.ystart.toNat + frameOffset s.height.toNat height := rfl
  rw [rowNotes]
  by_cases hr : frameOffset s.height.toNat height + r < s.height.toNat
  · rw [if_pos ⟨h1, hw, hr⟩, List.foldl_cons, List.foldl_nil, seeNote_row h1 hw hxs hys buf hr x y hv]
    exact if_congr (by omega) rfl rfl
  · rw [if_neg fun h => hr h.2.2, if_neg (by omega)]
    rfl

/-- The first `k` rows of the blit: they lie below one another, so each cell is painted by one of them at most. -/
theorem seeNotes_rows (buf height k x y : Nat) {v : CellView} (hv : v.lost = false) :
    ((List.range k).flatMap (rowNotes s buf n height)).foldl (seeNote x y) v =
      if frameLeft s n ≤ x ∧ x < frameLeft s n + n ∧ frameTop s height ≤ y ∧ y < frameTop s height + k
          ∧ y < s.ystart.toNat + s.height.toNat then
        frameCell s buf n height x y
      else v := by
  induction k with
  | zero =>
    rw [if_neg (by omega)]
    rfl
  | succ k ih =>
    rw [List.range_succ, List.flatMap_append, List.foldl_append, ih, List.flatMap_singleton,
      seeNotes_row h1 hw hxs hys buf height k x y (by split <;> simp [frameCell, hv])]
    by_cases hrow : frameLeft s n ≤ x ∧ x < frameLeft s n + n ∧ y = frameTop s height + k
        ∧ y < s.ystart.toNat + s.height.toNat
    · rw [if_pos hrow, if_pos (by omega)]
    · rw [if_neg hrow]
      exact if_congr (by omega) rfl rfl

end OnPanel

/-! ## The statement -/

/-- Settles O54: the rows that OUT gains, each a window write on its own cells. -/
theorem finishUpdatePaintsTheFrame : Obligations.FinishUpdatePaintsTheFrame := by
  intro c s n height hc ht hn hh h0 h2 h3 h1 hw hxs hys
  refine ⟨_, PassesChecks.out ⟨hc, hn, hh, h0, h2, h3⟩ ht, fun x y v hv => ?_⟩
  rw [seeOperation_rows c ht, seeNotes_rows h1 hw hxs hys _ _ _ x y hv]
  rfl

end Sys2Proof.Machine
end

section
/-! PROOFS. The Keypad Scanner (spec/45_keypad_scanner.md R220 to R228): what a poll appends to OUT, and that the other
operations neither read nor move what it reads and moves. -/

namespace Sys2Proof.Machine

/-! ## The projections of keypad events and of display events (spec/10_state.md R41) -/

section Projections
variable {events : List Event}

theorem wireOf_of_keypad (h : ∀ e ∈ events, displayEvent e = false) : wireOf events = [] :=
  List.filter_eq_nil_iff.2 fun e he => by
    cases e with
    | strobe | kpcfg | key | delayUs => exact Bool.false_ne_true
    | _ => exact nomatch h _ he

theorem diagsOf_of_keypad (h : ∀ e ∈ events, displayEvent e = false) : diagsOf events = [] :=
  List.filterMap_eq_nil_iff.2 fun e he => by
    cases e with
    | strobe | kpcfg | key | delayUs => exact rfl
    | _ => exact nomatch h _ he

theorem kpWireOf_of_display (h : ∀ e ∈ events, displayEvent e = true) : kpWireOf events = [] :=
  List.filter_eq_nil_iff.2 fun e he => by
    cases e with
    | strobe | kpcfg | key | delayUs => exact nomatch h _ he
    | _ => exact Bool.false_ne_true

theorem evqOf_of_display (h : ∀ e ∈ events, displayEvent e = true) : evqOf events = [] :=
  List.filterMap_eq_nil_iff.2 fun e he => by
    cases e with
    | strobe | kpcfg | key | delayUs => exact nomatch h _ he
    | _ => exact rfl

end Projections

/-! ## The events of a poll -/

/-- A phase posts KEY events and nothing else (R220). -/
theorem exists_key_of_mem_phaseEvents {c : Cfg} {s : State} {p : Fin 2} {e : Event} (h : e ∈ phaseEvents c s p) :
    ∃ edge code, e = .key edge code := by
  have key (i : Fin 5) (hi : e ∈ keyEvent c s p i) : ∃ edge code, e = .key edge code := by
    unfold keyEvent at hi
    split at hi
    · simp at hi
    · exact ⟨_, _, List.mem_singleton.1 hi⟩
  simp only [phaseEvents, List.mem_append] at h
  rcases h with (((h | h) | h) | h) | h <;> exact key _ h

theorem kpWireOf_phaseEvents (c : Cfg) (s : State) (p : Fin 2) : kpWireOf (phaseEvents c s p) = [] :=
  List.filter_eq_nil_iff.2 fun e he => by
    obtain ⟨edge, code, rfl⟩ := exists_key_of_mem_phaseEvents he
    simp

theorem displayEvent_of_mem_pollEvents {c : Cfg} {s : State} {e : Event} (h : e ∈ pollEvents c s) :
    displayEvent e = false := by
  have phase (p : Fin 2) (hp : e ∈ phaseEvents c s p) : displayEvent e = false := by
    obtain ⟨edge, code, rfl⟩ := exists_key_of_mem_phaseEvents hp
    rfl
  have first (hf : e ∈ if s.kpInit then [] else [Event.kpcfg]) : displayEvent e = false := by
    split at hf
    · simp at hf
    · rw [List.mem_singleton.1 hf]
      rfl
  simp only [pollEvents, List.mem_append, List.mem_cons, List.not_mem_nil, or_false] at h
  rcases h with ((((h | rfl | rfl) | h) | rfl | rfl) | h) | rfl
  · exact first h
  · rfl
  · rfl
  · exact phase 0 h
  · rfl
  · rfl
  · exact phase 1 h
  · rfl

/-- R228 (b): KPWIRE drops the KEY events of the two phases and keeps the rest. -/
theorem kpWireOf_pollEvents (c : Cfg) (s : State) :
    kpWireOf (pollEvents c s) = (if s.kpInit then [] else [.kpcfg])
      ++ [.strobe 0b01, .delayUs c.tStrobeUs, .strobe 0b10, .delayUs c.tStrobeUs, .strobe 0b00] := by
  have first : kpWireOf (if s.kpInit then [] else [.kpcfg]) = if s.kpInit then [] else [.kpcfg] := by
    split <;> rfl
  simp only [pollEvents, kpWireOf_append, kpWireOf_phaseEvents, first, List.append_assoc]
  rfl

/-- The events of a poll are read off the levels, the remembered keys and KP_INIT. -/
theorem pollEvents_congr (c : Cfg) {s t : State} (hl : t.levels = s.levels) (hs : t.scan = s.scan)
    (hk : t.kpInit = s.kpInit) : pollEvents c t = pollEvents c s := by
  have phase (p : Fin 2) : phaseEvents c t p = phaseEvents c s p := phaseEvents_congr c p hl (by rw [hs])
  simp only [pollEvents, phase, hk]

/-- A poll is an overlay: of the block's state it writes the keypad's part and OUT. -/
theorem run_keypadPoll (s : State) :
    run .keypadPoll s = overlay s s.levels 0b00 true (s.out ++ pollEvents Config.cfg s) :=
  opKeypadPoll_eq Config.cfg s

/-! ## The other operations -/

/-- From `s` and from every overlay of `s` alike, `f` appends the display events `ev` and leaves the keypad's state. -/
structure DisplayOnly (f : State → State) (s : State) (ev : List Event) : Prop where
  events : ∀ e ∈ ev, displayEvent e = true
  levels : (f s).levels = s.levels
  overlays : ∀ scan strobe kpInit out,
    f (overlay s scan strobe kpInit out) = overlay (f s) scan strobe kpInit (out ++ ev)

namespace DisplayOnly
variable {f g : State → State} {s : State} {ev : List Event}

/-- `s` is an overlay of itself, so `f` leaves its keypad state and appends `ev` to its OUT. -/
theorem eq_overlay (h : DisplayOnly f s ev) : f s = overlay (f s) s.scan s.strobe s.kpInit (s.out ++ ev) :=
  h.overlays s.scan s.strobe s.kpInit s.out

theorem scan (h : DisplayOnly f s ev) : (f s).scan = s.scan := by rw [h.eq_overlay]; rfl
theorem strobe (h : DisplayOnly f s ev) : (f s).strobe = s.strobe := by rw [h.eq_overlay]; rfl
theorem kpInit (h : DisplayOnly f s ev) : (f s).kpInit = s.kpInit := by rw [h.eq_overlay]; rfl
theorem out (h : DisplayOnly f s ev) : (f s).out = s.out ++ ev := congrArg State.out h.eq_overlay

theorem sameOver (h : DisplayOnly g s ev) (hf : SameOver f g s) : DisplayOnly f s ev where
  events := h.events
  levels := hf.1 ▸ h.levels
  overlays scan strobe kpInit out := by rw [hf.2, h.overlays, hf.1]

end DisplayOnly

theorem displayOnly_raise (t : Trap) (s : State) : DisplayOnly (raise t) s [] where
  events := by simp
  levels := rfl
  overlays _ _ _ out := by
    rw [List.append_nil]
    rfl

theorem displayOnly_createDescriptor (c : Cfg) (t : Transport) (w h : Half) (s : State) :
    DisplayOnly (createDescriptor c t w h) s
      (match c.originTable t w h with | some _ => [] | none => [.diagUnsupportedDims t w h]) where
  events := by split <;> simp [displayEvent]
  levels := by rw [createDescriptor_eq]
  overlays _ _ _ _ := by
    rw [createDescriptor_eq, createDescriptor_eq]
    rfl

theorem exists_displayOnly_blitFrame (c : Cfg) (buf n height : Nat) (s : State) :
    ∃ ev, DisplayOnly (blitFrame c buf n height) s ev := by
  obtain ⟨ev, h, overlays⟩ := blitFrame_sends c buf n height s
  exact ⟨ev, h.events, by rw [h.frame]; rfl, overlays⟩

theorem Moves.exists_displayOnly {f : State → State} {s : State} (h : Moves f s) : ∃ ev, DisplayOnly f s ev := by
  obtain ⟨ev, h, overlays⟩ := h
  exact ⟨ev, h.events, by rw [h.frame], overlays⟩

/-- R228 (d): every operation but a poll is an operation of the display. -/
theorem exists_displayOnly_run {i : Instr} (hi : i ≠ .keypadPoll) (s : State) : ∃ ev, DisplayOnly (run i) s ev := by
  rcases run_cases i s with rfl | rfl | rfl | hdoes
  · exact absurd rfl hi
  · exact ⟨[], by simp, rfl, fun _ _ _ _ => by simp only [run, opGetBackBuffer_eq, List.append_nil]; rfl⟩
  · exact ⟨[], by simp, rfl, fun _ _ _ _ => by simp only [run, opGetFrontBuffer_eq, List.append_nil]; rfl⟩
  · rcases hdoes with ⟨t, -, same⟩ | ⟨-, -, t, same⟩ | ⟨-, -, buf, n, height, same⟩ | ⟨-, moves⟩
    · exact ⟨_, (displayOnly_raise t s).sameOver same⟩
    · exact ⟨_, (displayOnly_createDescriptor Config.cfg t (u16 s.a1) (u16 s.a2) s).sameOver same⟩
    · obtain ⟨ev, blit⟩ := exists_displayOnly_blitFrame Config.cfg buf n height s
      exact ⟨ev, blit.sameOver same⟩
    · exact moves.exists_displayOnly

/-! ## The statements -/

/-- Settles O44, by the fields of a poll. -/
theorem keypadPollScansBothPhases : Obligations.KeypadPollScansBothPhases := by
  refine ⟨rfl, fun s => ?_⟩
  rw [exec_eq_run, run_keypadPoll]
  rfl

/-- Settles O45: the levels choose KEY events only, and KPWIRE drops those. -/
theorem pollStrobesAreFixed : Obligations.PollStrobesAreFixed := fun s =>
  ⟨_, pollEvents Config.cfg s, by rw [exec_eq_run, run_keypadPoll], rfl, kpWireOf_pollEvents Config.cfg s⟩

/-- Settles O46: an operation of the display leaves the keypad's state and posts no key; a poll is an overlay, and its
events are none of the display's. -/
theorem displayAndKeypadAreSeparate : Obligations.DisplayAndKeypadAreSeparate := by
  intro i s t h
  obtain rfl := (exec_next_iff i s t).1 h
  constructor
  · intro hi
    obtain ⟨ev, display⟩ := exists_displayOnly_run hi s
    refine ⟨display.scan, display.strobe, display.kpInit, ?_⟩
    rw [display.out, evqOf_append, evqOf_of_display display.events, List.append_nil]
  · rintro rfl
    have keypad : ∀ e ∈ pollEvents Config.cfg s, displayEvent e = false := fun _ => displayEvent_of_mem_pollEvents
    rw [run_keypadPoll]
    refine ⟨rfl, ?_, ?_⟩
    · exact (wireOf_append ..).trans (by rw [wireOf_of_keypad keypad, List.append_nil])
    · exact (diagsOf_append ..).trans (by rw [diagsOf_of_keypad keypad, List.append_nil])

/-- In either order an operation of the display and a poll append the same two lists of events to OUT, and leave the
same state but for the order of the two. -/
theorem run_keypadPoll_comm {i : Instr} {s : State} {ev : List Event} (h : DisplayOnly (run i) s ev) :
    run .keypadPoll (run i s) = overlay (run i s) s.levels 0b00 true (s.out ++ ev ++ pollEvents Config.cfg s)
      ∧ run i (run .keypadPoll s) = overlay (run i s) s.levels 0b00 true (s.out ++ pollEvents Config.cfg s ++ ev) := by
  constructor
  · rw [run_keypadPoll, pollEvents_congr _ h.levels h.scan h.kpInit, h.levels, h.out]
  · rw [run_keypadPoll, h.overlays]

/-- Settles O47: each projection drops the poll's events or the operation's, so their order is not seen. -/
theorem operationsCommuteWithPolls : Obligations.OperationsCommuteWithPolls := by
  intro i s t u t' u' hi ht hu ht' hu'
  obtain rfl := (exec_next_iff ..).1 ht
  obtain rfl := (exec_next_iff ..).1 ht'
  obtain ⟨ev, display⟩ := exists_displayOnly_run hi s
  obtain ⟨pollLast, pollFirst⟩ := run_keypadPoll_comm display
  obtain rfl := ((exec_next_iff ..).1 hu).trans pollLast
  obtain rfl := ((exec_next_iff ..).1 hu').trans pollFirst
  have keypad : ∀ e ∈ pollEvents Config.cfg s, displayEvent e = false := fun _ => displayEvent_of_mem_pollEvents
  refine ⟨rfl, ?_, ?_, ?_, ?_⟩ <;> simp only [overlay]
  · simp only [wireOf_append, wireOf_of_keypad keypad, List.append_nil]
  · simp only [kpWireOf_append, kpWireOf_of_display display.events, List.append_nil]
  · simp only [evqOf_append, evqOf_of_display display.events, List.append_nil]
  · simp only [diagsOf_append, diagsOf_of_keypad keypad, List.append_nil]

end Sys2Proof.Machine
end

section
/-! PROOFS. Faults (spec/60_exceptions.md R240 to R242): which request takes which of the seven codes, what taking one
changes, and what a faulted block still does. -/

namespace Sys2Proof.Machine

/-! ## What an operation takes -/

/-- R241: an operation leaves both status fields, or taking a fault other than IllegalCommand is all it does. -/
theorem Effect.keeps_status_or_faults {i : Instr} {s t : State} (h : Effect i s t) :
    (t.fault = s.fault ∧ t.faultcode = s.faultcode) ∨ ∃ f, f ≠ Trap.illegalCommand ∧ t = raise f s := by
  cases h with
  | polls | results => exact .inl ⟨rfl, rfl⟩
  | faults f hf => exact .inr ⟨f, hf, rfl⟩
  | creates => rw [createDescriptor_eq]; exact .inl ⟨rfl, rfl⟩
  | blits _ _ h | sends _ h => rw [h.frame]; exact .inl ⟨rfl, rfl⟩

/-- R240: the code 1 is IllegalCommand's alone. -/
theorem Trap.two_le_code {f : Trap} (hf : f ≠ .illegalCommand) : 2 ≤ f.code := by
  cases f with
  | illegalCommand => exact absurd rfl hf
  | _ => decide

/-- Settles O11: the one effect that moves the status fields is a fault, and its code is one of 2 to 7. -/
theorem takingAFaultChangesOnlyStatus : Obligations.TakingAFaultChangesOnlyStatus := by
  intro i s t h
  refine (effect_of_exec h).keeps_status_or_faults.imp_right ?_
  rintro ⟨f, hf, rfl⟩
  exact ⟨f.code, Trap.two_le_code hf, f.code_le_seven, rfl⟩

/-! ## The causes -/

/-- R240: each of the eleven operations starts with the descriptor check. -/
theorem exists_run_eq_needPanel {i : Instr} (hi : i ∈ needsPanel) : ∃ body, run i = needPanel body := by
  simp only [needsPanel, List.mem_cons, List.not_mem_nil, or_false] at hi
  rcases hi with rfl | rfl | rfl | rfl | rfl | rfl | rfl | rfl | rfl | rfl | rfl <;> exact ⟨_, rfl⟩

/-- R25: a value above 2 names no transport. -/
theorem transportOperand_eq_none {a : Word} (h : 2 < a.toNat) : transportOperand a = none := by
  rw [transportOperand, if_neg (by bv_omega), if_neg (by bv_omega), if_neg (by bv_omega)]

theorem opWriteCommand_lengthFault {c : Cfg} {s : State} (hc : s.created = true) (h : c.xbufBytes < s.a1.toNat) :
    opWriteCommand c s = faulted s 5 := by
  rw [opWriteCommand, needPanel_created _ s hc]
  exact if_pos h

theorem opWrite_lengthFault {c : Cfg} {s : State} (hc : s.created = true) (h : c.xbufBytes < s.a0.toNat) :
    opWrite c s = faulted s 5 := by
  rw [opWrite, needPanel_created _ s hc]
  exact if_pos h

/-- R240: a poll and the two buffer requests leave both status fields. -/
theorem run_keeps_status {i : Instr} (hi : i ∈ [.keypadPoll, .getBackBuffer, .getFrontBuffer]) (s : State) :
    (run i s).fault = s.fault ∧ (run i s).faultcode = s.faultcode := by
  simp only [List.mem_cons, List.not_mem_nil, or_false] at hi
  rcases hi with rfl | rfl | rfl
  · rw [run_keypadPoll]; exact ⟨rfl, rfl⟩
  · exact ⟨rfl, rfl⟩
  · exact ⟨rfl, rfl⟩

/-- Settles O10: each cause at its place in the order of the checks. -/
theorem faultCausesAndTheirCodes : Obligations.FaultCausesAndTheirCodes := by
  obtain ⟨-, illegalCommand⟩ := onlyFifteenCommandWordsAreLegal
  obtain ⟨-, create⟩ := panelCreateSetsTheDescriptor
  refine ⟨illegalCommand, fun i s hi hc => ?noPanel, fun s hc => ?alreadyCreated, fun s hc ha => ?badTransport,
    fun s => ⟨rfl, rfl, rfl⟩, fun c s => opWriteCommand_lengthFault, fun c s => opWrite_lengthFault,
    fun c s hc hbuf => ?noBuffer, fun c s hc hbuf hrow => ?rowOverflow, fun c s hc hbuf hrow hframe => ?sourceRange,
    fun i s t hi h => ?noFault⟩
  case noPanel =>
    obtain ⟨body, hrun⟩ := exists_run_eq_needPanel hi
    rw [exec_of_needPanel hrun rfl, if_pos hc]
  case alreadyCreated => rw [create, if_pos hc]
  case badTransport => rw [create, if_neg (by simp [hc]), transportOperand_eq_none ha]
  case noBuffer => rw [opFinishUpdate_eq, if_neg (by simp [hc]), if_pos hbuf]
  case rowOverflow =>
    rw [opFinishUpdate_eq, if_neg (by simp [hc]), if_neg (Nat.not_le.2 hbuf), if_pos hrow]
  case sourceRange =>
    rw [opFinishUpdate_eq, if_neg (by simp [hc]), if_neg (Nat.not_le.2 hbuf), if_neg (Nat.not_lt.2 hrow),
      if_pos hframe]
  case noFault =>
    obtain rfl := (exec_next_iff ..).1 h
    exact run_keeps_status hi s

/-! ## A faulted block -/

/-- R242: while FAULT = 1 every action but reset leaves both status fields. -/
theorem Performed.keeps_status {a : HostAction} {s t : State} (h : Performed a s t) (hf : s.fault = true)
    (ha : a ≠ .reset) : t.fault = s.fault ∧ t.faultcode = s.faultcode := by
  cases h with
  | runs h0 | illegal h0 => exact absurd (hf.symm.trans h0) (by decide)
  | operands | reads | levels => exact ⟨rfl, rfl⟩
  | cell sp => cases sp <;> exact ⟨rfl, rfl⟩
  | resets hr => exact absurd hr ha

/-- R242: while FAULT = 1 only a reset moves the status fields. -/
theorem step_keeps_status {s t : State} (hf : s.fault = true) (h : step s = .next t)
    (hreset : ∀ rest, s.pending ≠ .reset :: rest) : t.fault = s.fault ∧ t.faultcode = s.faultcode := by
  rcases step_next_cases h with ⟨-, rfl⟩ | ⟨a, rest, hp, hperf⟩
  · exact ⟨rfl, rfl⟩
  · exact hperf.keeps_status hf fun ha => hreset rest (ha ▸ hp)

/-- Registers do not depend on the host's list. -/
theorem readReg_withPending (s : State) (rest : List HostAction) (n : Nat) :
    readReg { s with pending := rest } n = readReg s n := rfl

/-- A step that reads a register answers what the register reads (R27). -/
theorem step_readReg {s : State} {n : Nat} {v : Word} {rest : List HostAction} (hp : s.pending = .readReg n :: rest)
    (h : readReg s n = some v) : step s = .next (answer v { s with pending := rest }) := by
  rw [← readReg_withPending s rest] at h
  rw [step_of_pending_cons hp, perform_readReg, hostReadReg_of_readReg h]

/-- A step that writes an operand register makes it read as written (R21, R27). -/
theorem step_writeReg_operand {s : State} {n : Nat} {v : Word} {rest : List HostAction} (h3 : 3 ≤ n) (h7 : n ≤ 7)
    (hp : s.pending = .writeReg n v :: rest) : ∃ t, step s = .next t ∧ readReg t n = some v ∧ t.pending = rest := by
  obtain ⟨t, ht, hpend, -, hread⟩ := hostWriteReg_operand v { s with pending := rest } h3 h7
  refine ⟨t, ?_, ?_, hpend⟩
  · rw [step_of_pending_cons hp, perform_writeReg v _ (by omega), ht]
  · rw [hread n (by omega), if_pos rfl]

/-- A step that writes a cell that exists with a value that fits leaves that write (R61). -/
theorem step_writeMem {s : State} {sp : Space} {i : Nat} {v : Half} {rest : List HostAction}
    (hp : s.pending = .writeMem sp i v :: rest) (hsp : sp ≠ .lut) (hex : spaceExists Config.cfg sp = true)
    (hi : i < spaceCells Config.cfg sp) (hv : fitsCell sp v = true) :
    step s = .next (writeCell sp i v { s with pending := rest }) := by
  rw [step_of_pending_cons hp, perform_writeMem, hostWriteMem_cell _ hsp hex hi hv]

/-- Settles O12: the write of CMD stops, the host's accesses are performed as ever, and the status fields move at reset
only. -/
theorem faultedBlockOnlyServesHostAccess : Obligations.FaultedBlockOnlyServesHostAccess := by
  intro s hf
  refine ⟨fun w rest hp => ?_, fun n rest hn hp => ?_, fun n v rest h3 h7 hp => step_writeReg_operand h3 h7 hp,
    fun sp i rest hex hi hp => step_readMem hp hex hi,
    fun sp i v rest hsp hex hi hv hp => step_writeMem hp hsp hex hi hv, fun t h hreset => ?_,
    fun rest hp => ⟨_, step_of_pending_cons hp, rfl, rfl⟩⟩
  · obtain ⟨refused, -, -⟩ := stepRunsTheWrittenCommand s w rest hp
    exact refused hf
  · obtain ⟨v, hv⟩ := exists_readReg s hn
    exact ⟨v, hv, step_readReg hp hv⟩
  · obtain ⟨hfault, hcode⟩ := step_keeps_status hf h hreset
    exact ⟨hfault.trans hf, hcode⟩

end Sys2Proof.Machine
end

section
/-! PROOFS. Reset from any state (spec/70_reset_and_hazards.md R270), and the window writes that the block's own pixels
make to the panel observer (R281, spec/20_memory.md R75). -/

namespace Sys2Proof.Machine

/-! ## Reset -/

theorem perform_reset (s : State) : perform .reset s = .next (applyReset s) := rfl

/-- R270: after a reset every palette and LUT cell holds its fresh unspecified content. -/
theorem cells_applyReset (s : State) (i : Nat) :
    palCell (applyReset s) i = Config.palPowerOn (s.epoch + 1) i
      ∧ lutCell (applyReset s) i = Config.lutPowerOn (s.epoch + 1) i := ⟨rfl, rfl⟩

/-- Settles O49: the reset action performs `applyReset` on the state without it. -/
theorem resetIsTotal : Obligations.ResetIsTotal := by
  intro s rest hp
  refine ⟨applyReset { s with pending := rest }, ?_, rfl, cells_applyReset _⟩
  rw [step_of_pending_cons hp, perform_reset]

/-! ## Clean streams -/

theorem CleanEvents.ite {c : Cfg} {p : Prop} [Decidable p] {a b : List Event} (ha : p → CleanEvents c a)
    (hb : ¬ p → CleanEvents c b) : CleanEvents c (if p then a else b) := by
  split
  · next h => exact ha h
  · next h => exact hb h

/-- A stream without frames is clean. -/
theorem CleanEvents.of_noFrames {c : Cfg} {events : List Event} (h : Reads events []) : CleanEvents c events :=
  ⟨[], h, fun p _ hr => hr p⟩

section Streams
variable (c : Cfg) {s : State} (ht : s.transport ≠ .null)

/-- The commands of INIT without a parameter close the write before them. -/
theorem panelCommand_action {b : Byte} (hb : b ∈ [0x01, 0x11, 0x13, 0x21, 0x29]) (p : PanelPhase) :
    panelCommand c p b [] = (closePhase p, .idle) := by
  simp only [List.mem_cons, List.not_mem_nil, or_false] at hb
  rcases hb with rfl | rfl | rfl | rfl | rfl <;> rfl

/-- So do its mode sets, with the parameter bytes of the configuration. -/
theorem panelCommand_colmod (p : PanelPhase) :
    panelCommand c p 0x3A [c.colmodValue] = (closePhase p, .idle) := if_pos rfl

theorem panelCommand_madctl (p : PanelPhase) :
    panelCommand c p 0x36 [c.madctlValue] = (closePhase p, .idle) := if_pos rfl

/-- A step of INIT whose command the observer knows. -/
theorem cleanEvents_step (t : Transport) {b : Byte} {data : Option (List Byte)} (ms : Nat) (hb : b ≠ 0)
    (h : ∀ p, panelCommand c p b (data.getD []) = (closePhase p, .idle)) : CleanEvents c (stepEvents c t b data ms) :=
  ⟨_, reads_step c t b data ms, clean_command c b data hb h⟩

theorem cleanEvents_action (t : Transport) {b : Byte} (ms : Nat) (hb : b ∈ [0x01, 0x11, 0x13, 0x21, 0x29]) :
    CleanEvents c (stepEvents c t b none ms) :=
  cleanEvents_step c t ms (fun h => by simp [h] at hb) (panelCommand_action c hb)

/-- The mode commands of INIT. -/
theorem cleanEvents_modes (t : Transport) : CleanEvents c (modeEvents c t) := by
  have colmod : CleanEvents c (stepEvents c t 0x3A (some [c.colmodValue]) c.tColmodMs) :=
    cleanEvents_step c t _ (by decide) (panelCommand_colmod c)
  have madctl : CleanEvents c (stepEvents c t 0x36 (some [c.madctlValue]) c.tMadctlMs) :=
    cleanEvents_step c t _ (by decide) (panelCommand_madctl c)
  exact (((((cleanEvents_action c t _ (by decide)).append (cleanEvents_action c t _ (by decide))).append colmod).append
    madctl).append (cleanEvents_action c t _ (by decide))).append (cleanEvents_action c t _ (by decide))

include ht

/-- A fill of at least one pixel is a window write. -/
theorem cleanEvents_fill (x0 y0 x1 y1 : Half) {count : Nat} (hcount : 1 ≤ count) (color : Half) :
    CleanEvents c (fillEvents c s x0 y0 x1 y1 count color) :=
  ⟨_, reads_fill c s x0 y0 x1 y1 count color, clean_fill c s x0 y0 x1 y1 count color ht hcount⟩

/-- A run of a line that is accepted is not empty. -/
theorem cleanEvents_run (steep : Bool) (color : Half) (r : Run) : CleanEvents c (runEvents c s steep color r) := by
  cases steep with
  | false =>
    refine .ite (fun hok => ?_) fun _ => .nil c
    obtain ⟨hn, -⟩ := (windowOk_row ..).1 hok
    exact cleanEvents_fill c ht _ _ _ _ hn color
  | true =>
    refine .ite (fun hok => ?_) fun _ => .nil c
    obtain ⟨hn, -⟩ := (windowOk_column ..).1 hok
    exact cleanEvents_fill c ht _ _ _ _ hn color

/-- A row of a frame is one window and its pixels. -/
theorem cleanEvents_row (buf n height r : Nat) : CleanEvents c (rowEvents c s buf n height r) := by
  refine .ite (fun _ => ?_) fun _ => .nil c
  exact ⟨_, (reads_window c s _ _ _ _).append (reads_piece c _ true _), clean_window c s _ _ _ _ _ ht⟩

/-- INIT fills a panel that has cells, and otherwise sends its own commands. -/
theorem cleanEvents_init : CleanEvents c (initEvents c s) := by
  have fill : CleanEvents c (if s.width = 0 ∨ s.height = 0 then []
      else fillEvents c s 0 0 (s.width - 1) (s.height - 1) (s.width.toNat * s.height.toNat) 0) := by
    refine .ite (fun _ => .nil c) fun hsize => cleanEvents_fill c ht _ _ _ _ ?_ _
    exact Nat.mul_pos (by bv_omega) (by bv_omega)
  rw [initEvents_eq]
  exact (CleanEvents.of_noFrames (reads_hardReset c)).append ((cleanEvents_modes c s.transport).append
    (fill.append ((CleanEvents.of_noFrames (reads_delay _)).append (cleanEvents_action c _ _ (by decide)))))

end Streams

/-! ## Operations that append clean streams -/

/-- From `s` to `t` OUT grew by a stream that the observer reads as window writes and commands of INIT. -/
def AppendsClean (c : Cfg) (s t : State) : Prop := ∃ ev, t.out = s.out ++ ev ∧ CleanEvents c ev

theorem AppendsClean.of_out_eq {c : Cfg} {s t : State} (h : t.out = s.out) : AppendsClean c s t :=
  ⟨[], h.trans (List.append_nil _).symm, .nil c⟩

theorem AppendsClean.needPanel {c : Cfg} {body : State → State} {s : State} (h : AppendsClean c s (body s)) :
    AppendsClean c s (needPanel body s) := by
  rw [needPanel_eq]
  split
  · exact .of_out_eq rfl
  · exact h

section Operations
variable (c : Cfg) (s : State)

/-- A fill whose window is accepted only with a pixel in it. -/
theorem appendsClean_fillWindow {x0 y0 x1 y1 : Half} {count : Nat} (color : Half)
    (hcount : windowOk s x0 y0 x1 y1 = true → 1 ≤ count) :
    AppendsClean c s (fillWindow c x0 y0 x1 y1 count color s) := by
  obtain ⟨drew, -⟩ := drew_fillWindow c x0 y0 x1 y1 count color s
  exact ⟨_, drew.out, .ite (fun _ => .nil c) fun ht =>
    .ite (fun hok => cleanEvents_fill c ht _ _ _ _ (hcount hok) color) fun _ => .nil c⟩

theorem appendsClean_init : AppendsClean c s (opInit c s) := by
  refine .needPanel ?_
  by_cases ht : s.transport = .null
  · rw [if_pos ht]
    exact .of_out_eq rfl
  · rw [if_neg ht, initSequence_sends c s ht]
    exact ⟨_, rfl, cleanEvents_init c ht⟩

theorem appendsClean_drawPixel : AppendsClean c s (opDrawPixel c s) :=
  .needPanel (appendsClean_fillWindow c s _ fun _ => le_rfl)

theorem appendsClean_hline : AppendsClean c s (opHline c s) :=
  .needPanel (appendsClean_fillWindow c s _ fun hok => ((windowOk_row ..).1 hok).1)

theorem appendsClean_vline : AppendsClean c s (opVline c s) :=
  .needPanel (appendsClean_fillWindow c s _ fun hok => ((windowOk_column ..).1 hok).1)

theorem appendsClean_fillRect : AppendsClean c s (opFillRect c s) := by
  refine .needPanel (appendsClean_fillWindow c s _ fun hok => ?_)
  obtain ⟨hw, hh, -⟩ := (windowOk_rect ..).1 hok
  exact Nat.mul_pos hw hh

theorem appendsClean_line : AppendsClean c s (opLine c s) := by
  refine .needPanel ?_
  obtain ⟨drew, -⟩ := drew_emitRuns c (lineSteep (s16 s.a0) (s16 s.a1) (s16 s.a2) (s16 s.a3)) (u16 s.a4)
    (lineRuns (s16 s.a0) (s16 s.a1) (s16 s.a2) (s16 s.a3)) s
  exact ⟨_, drew.out, .ite (fun _ => .nil c) fun ht => .flatMap _ _ fun r _ => cleanEvents_run c ht _ _ r⟩

/-- The frame of FINISH_UPDATE after its checks. -/
theorem appendsClean_blitFrame (buf : Nat) {n height : Nat} (hn : n ≤ 65535) (hh : height ≤ 65535) :
    AppendsClean c s (blitFrame c buf n height s) := by
  obtain ⟨drew, -⟩ := drew_blitFrame c buf hn hh s
  exact ⟨_, drew.out, .ite (fun _ => .nil c) fun ht => .flatMap _ _ fun r _ => cleanEvents_row c ht _ _ _ r⟩

theorem appendsClean_finishUpdate : AppendsClean c s (opFinishUpdate c s) := by
  rw [opFinishUpdate_eq]
  split_ifs with _ _ hrow
  · exact .of_out_eq rfl
  · exact .of_out_eq rfl
  · exact .of_out_eq rfl
  · exact .of_out_eq rfl
  · exact appendsClean_blitFrame c s _ ((Nat.not_lt.1 hrow).trans (rowbufPixels_le c))
      (Nat.le_of_lt_succ (u16 s.a2).isLt)

end Operations

/-- R281: every operation that generates its pixels appends a clean stream. -/
theorem appendsClean_run {i : Instr} (hi : i ∈ generatesPixels) (s : State) : AppendsClean Config.cfg s (run i s) := by
  simp only [generatesPixels, List.mem_cons, List.not_mem_nil, or_false] at hi
  rcases hi with rfl | rfl | rfl | rfl | rfl | rfl | rfl
  · exact appendsClean_init Config.cfg s
  · exact appendsClean_drawPixel Config.cfg s
  · exact appendsClean_hline Config.cfg s
  · exact appendsClean_vline Config.cfg s
  · exact appendsClean_fillRect Config.cfg s
  · exact appendsClean_line Config.cfg s
  · exact appendsClean_finishUpdate Config.cfg s

/-- Settles O52: the seven operations append clean streams, whose notes are window writes. -/
theorem generatedPixelWritesAreWindowed : Obligations.GeneratedPixelWritesAreWindowed := by
  intro i s hi
  obtain ⟨events, hout, clean⟩ := appendsClean_run hi s
  refine ⟨run i s, events, exec_eq_run i s, hout, ?_⟩
  rw [operationNotes_generated _ i events hi]
  exact clean.notes

end Sys2Proof.Machine
end
